-- ==== Sys2Proof/Word.lean ====
section
/-! DEFINITION. The two word types of the codec block (00_scope.md R6). -/
namespace Sys2Proof

/-- A byte: an unsigned integer in `0..255` (R6). -/
abbrev Byte := BitVec 8

/-- A u16: an unsigned integer in `0..65535` (R6). -/
abbrev U16 := BitVec 16

end Sys2Proof
end

