-- ==== Sys2Proof/Machine/Bytes.lean ====
section
/-! DEFINITION. Bytes of a u16 and parts of byte sequences (00_scope.md R6 to R8). -/
namespace Sys2Proof.Machine

/-- `lo8(v) = v[7:0]` (R7). -/
def lo8 (v : U16) : Byte := v.setWidth 8

/-- `hi8(v) = v[15:8]` (R7). -/
def hi8 (v : U16) : Byte := (v >>> 8).setWidth 8

/-- `u16le(lo, hi) = lo | (hi << 8)` (R8). -/
def u16le (lo hi : Byte) : U16 := lo.setWidth 16 ||| (hi.setWidth 16 <<< 8)

/-- `le2(v) = [lo8(v), hi8(v)]`: a u16 serialised low byte first (R8, 20_memory.md R50, R51). -/
def le2 (v : U16) : List Byte := [lo8 v, hi8 v]

/-- `s[a..b)`, empty when `a >= b` (R6). -/
def slice (s : List Byte) (a b : Nat) : List Byte := (s.take b).drop a

/-- `s[i]` (R6). Every rule that reads a byte has established `i < |s|`; outside it the value is of no
rule (log 13). -/
def byteAt (s : List Byte) (i : Nat) : Byte := s.getD i 0

end Sys2Proof.Machine
end

