-- ==== Sys2Proof/Syntax.lean ====
section
/-! DEFINITION. The operations of the codec block: one constructor per row of spec/opcode_table.json
(30_encoding.md R86 for the 25 operations, R87 and R88 for the three wire instruction codes). -/
namespace Sys2Proof

/-- A Register Access Descriptor: the immutable triple of 10_state.md R26. -/
structure Descriptor where
  /-- Bits 7:0 of the address of the motor register. -/
  addressLow : Byte
  /-- Bits 15:8 of the address of the motor register. -/
  addressHigh : Byte
  /-- Size of the motor register in bytes. -/
  length : Byte
deriving DecidableEq, Repr, Inhabited

/-- One operation with its operands, in the order of the opcode table. -/
inductive Instr where
  /-- `SUM.CLR` (40_checksum_engine.md R101). -/
  | sumClr
  /-- `SUM.BYTE b` (R102). -/
  | sumByte (b : Byte)
  /-- `SUM.GET` (R103). -/
  | sumGet
  /-- `CSUM1 s` (R104). -/
  | csum1 (s : List Byte)
  /-- `CRC.CLR` (41_crc16_generator.md R114). -/
  | crcClr
  /-- `CRC.BYTE b` (R115). -/
  | crcByte (b : Byte)
  /-- `CRC.GET` (R116). -/
  | crcGet
  /-- `CRC16 s` (R117). -/
  | crc16 (s : List Byte)
  /-- `PVER.SET v` (42_descriptor_and_config.md R125). -/
  | pverSet (v : Byte)
  /-- `PVER.GET` (R126). -/
  | pverGet
  /-- `ID.GET` (R127). -/
  | idGet
  /-- `MAP.RD k` (R128). -/
  | mapRd (k : Byte)
  /-- `ENV.NEWA s` (43_packet_envelope.md R138). -/
  | envNewa (s : List Byte)
  /-- `ENV.NEWB resp, s` (R139). -/
  | envNewb (resp : U16) (s : List Byte)
  /-- `ENV.CONSUME` (R140). -/
  | envConsume
  /-- `ENV.STAT` (R141). -/
  | envStat
  /-- `ENV.READ` (R143). -/
  | envRead
  /-- `F1.FRAME resp, body` (44_framer_generic.md R151). -/
  | f1Frame (resp : U16) (body : List Byte)
  /-- `F2.FRAME id, instr, resp, params` (R152). -/
  | f2Frame (id instr : Byte) (resp : U16) (params : List Byte)
  /-- `F1.CHECK s` (R156). -/
  | f1Check (s : List Byte)
  /-- `F2.CHECK s` (R157). -/
  | f2Check (s : List Byte)
  /-- `REG.RD d` (45_framer_register.md R172). -/
  | regRd (d : Descriptor)
  /-- `REG.WR d, ack, data` (R173). -/
  | regWr (d : Descriptor) (ack : Byte) (data : List Byte)
  /-- `REG.SETID newid, ack` (R174). -/
  | regSetid (newid ack : Byte)
  /-- `REG.XTR d, s` (R175). -/
  | regXtr (d : Descriptor) (s : List Byte)
  /-- Row `WIRE.WRITE`: the wire instruction code write, a value of frame byte 7, no command (30_encoding.md R87, R88). -/
  | wireWrite
  /-- Row `WIRE.READ`: the wire instruction code read, no command (R87, R88). -/
  | wireRead
  /-- Row `WIRE.STATUS`: the wire instruction code status/response, no command (R87, R88). -/
  | wireStatus
deriving DecidableEq, Repr

end Sys2Proof
end

