-- ==== Sys2Proof/WellFormed.lean ====
section
/-! DEFINITION. Which terms of `Instr` a command message can stand for. Every operand whose range its
type does not already fix is checked here; what an operand VALUE means is for the operation to judge
(60_exceptions.md R195). -/
namespace Sys2Proof

/-- A term is well formed when some command message encodes it: in format DW the data bytes are exactly
`len` many (30_encoding.md R76), and a row of format WIRE_V2_INSTR is no command at all (R88). -/
def Instr.wf : Instr → Bool
  | .regWr d _ data => data.length == d.length.toNat
  | .wireWrite => false
  | .wireRead => false
  | .wireStatus => false
  | .sumClr => true
  | .sumByte _ => true
  | .sumGet => true
  | .csum1 _ => true
  | .crcClr => true
  | .crcByte _ => true
  | .crcGet => true
  | .crc16 _ => true
  | .pverSet _ => true
  | .pverGet => true
  | .idGet => true
  | .mapRd _ => true
  | .envNewa _ => true
  | .envNewb _ _ => true
  | .envConsume => true
  | .envStat => true
  | .envRead => true
  | .f1Frame _ _ => true
  | .f2Frame _ _ _ _ => true
  | .f1Check _ => true
  | .f2Check _ => true
  | .regRd _ => true
  | .regSetid _ _ => true
  | .regXtr _ _ => true

end Sys2Proof
end

