-- ==== Sys2Proof/Decode.lean ====
section
/-! DEFINITION. From command messages to operations and back (30_encoding.md R70 to R76, R79, R86 to
R90). `decode` is total: a message either is exactly one operation with its operands or is rejected by name. -/
namespace Sys2Proof

open Sys2Proof.Machine (u16le lo8 hi8)

/-- Why a byte sequence is no operation. All of these are answered with `IllegalCommand`, but for the empty
sequence, which cannot be delivered (30_encoding.md R70, R89, R90). -/
inductive DecodeError where
  /-- There is no first byte (R70). -/
  | emptyMessage
  /-- The opcode is none of the 25 of R86 (R89). -/
  | unassignedOpcode (op : Byte)
  /-- The message length does not fit the opcode's format (R90). -/
  | malformedLength (op : Byte)
deriving DecidableEq, Repr

/-- Format N: no operand (R72). -/
def decodeN (op : Byte) (i : Instr) : List Byte → Except DecodeError Instr
  | [] => .ok i
  | _ => .error (.malformedLength op)

/-- Format B: one byte (R72). -/
def decodeB (op : Byte) (f : Byte → Instr) : List Byte → Except DecodeError Instr
  | [imm] => .ok (f imm)
  | _ => .error (.malformedLength op)

/-- Format SW: a u16, low byte first, then the rest of the message (R74, R81). -/
def decodeSW (op : Byte) (f : U16 → List Byte → Instr) : List Byte → Except DecodeError Instr
  | respL :: respH :: s => .ok (f (u16le respL respH) s)
  | _ => .error (.malformedLength op)

/-- Format F2 (R75). -/
def decodeF2 (op : Byte) : List Byte → Except DecodeError Instr
  | id :: instr :: respL :: respH :: params => .ok (.f2Frame id instr (u16le respL respH) params)
  | _ => .error (.malformedLength op)

/-- Format D: the descriptor operand alone (R76). -/
def decodeD (op : Byte) : List Byte → Except DecodeError Instr
  | [aL, aH, len] => .ok (.regRd ⟨aL, aH, len⟩)
  | _ => .error (.malformedLength op)

/-- Format DW: descriptor, ack, exactly `len` data bytes (R76). -/
def decodeDW (op : Byte) : List Byte → Except DecodeError Instr
  | aL :: aH :: len :: ack :: data =>
    if data.length = len.toNat then .ok (.regWr ⟨aL, aH, len⟩ ack data) else .error (.malformedLength op)
  | _ => .error (.malformedLength op)

/-- Format I: new identifier and ack (R79). -/
def decodeI (op : Byte) : List Byte → Except DecodeError Instr
  | [newid, ack] => .ok (.regSetid newid ack)
  | _ => .error (.malformedLength op)

/-- Format DX: descriptor, then the rest of the message (R76). -/
def decodeDX (op : Byte) : List Byte → Except DecodeError Instr
  | aL :: aH :: len :: s => .ok (.regXtr ⟨aL, aH, len⟩ s)
  | _ => .error (.malformedLength op)

/-- The opcode map of R86: the first byte selects the operation and its format. Format S takes the whole
rest of the message and cannot be malformed (R73, R90). -/
def decodeOp (op : Byte) (m : List Byte) : Except DecodeError Instr :=
  if op = 0x10 then decodeN op .sumClr m
  else if op = 0x11 then decodeB op .sumByte m
  else if op = 0x12 then decodeN op .sumGet m
  else if op = 0x13 then .ok (.csum1 m)
  else if op = 0x20 then decodeN op .crcClr m
  else if op = 0x21 then decodeB op .crcByte m
  else if op = 0x22 then decodeN op .crcGet m
  else if op = 0x23 then .ok (.crc16 m)
  else if op = 0x30 then decodeB op .pverSet m
  else if op = 0x31 then decodeN op .pverGet m
  else if op = 0x32 then decodeN op .idGet m
  else if op = 0x33 then decodeB op .mapRd m
  else if op = 0x40 then .ok (.envNewa m)
  else if op = 0x41 then decodeSW op .envNewb m
  else if op = 0x42 then decodeN op .envConsume m
  else if op = 0x43 then decodeN op .envStat m
  else if op = 0x44 then decodeN op .envRead m
  else if op = 0x50 then decodeSW op .f1Frame m
  else if op = 0x51 then decodeF2 op m
  else if op = 0x52 then .ok (.f1Check m)
  else if op = 0x53 then .ok (.f2Check m)
  else if op = 0x60 then decodeD op m
  else if op = 0x61 then decodeDW op m
  else if op = 0x62 then decodeI op m
  else if op = 0x63 then decodeDX op m
  else .error (.unassignedOpcode op)

/-- The operation a command message requests (R70). -/
def decode : List Byte → Except DecodeError Instr
  | [] => .error .emptyMessage
  | op :: rest => decodeOp op rest

/-- The wire instruction a byte at offset 7 of a v2 frame stands for (R87): the table's rows of format
WIRE_V2_INSTR, which a decoder of command messages skips (R88). -/
def decodeWire (b : Byte) : Option Instr :=
  if b = 0x03 then some .wireWrite
  else if b = 0x04 then some .wireRead
  else if b = 0x55 then some .wireStatus
  else none

/-- The opcode of each operation (R86); for the three WIRE rows the value of the wire byte (R87). -/
def opcode : Instr → Byte
  | .sumClr => 0x10
  | .sumByte _ => 0x11
  | .sumGet => 0x12
  | .csum1 _ => 0x13
  | .crcClr => 0x20
  | .crcByte _ => 0x21
  | .crcGet => 0x22
  | .crc16 _ => 0x23
  | .pverSet _ => 0x30
  | .pverGet => 0x31
  | .idGet => 0x32
  | .mapRd _ => 0x33
  | .envNewa _ => 0x40
  | .envNewb _ _ => 0x41
  | .envConsume => 0x42
  | .envStat => 0x43
  | .envRead => 0x44
  | .f1Frame _ _ => 0x50
  | .f2Frame _ _ _ _ => 0x51
  | .f1Check _ => 0x52
  | .f2Check _ => 0x53
  | .regRd _ => 0x60
  | .regWr _ _ _ => 0x61
  | .regSetid _ _ => 0x62
  | .regXtr _ _ => 0x63
  | .wireWrite => 0x03
  | .wireRead => 0x04
  | .wireStatus => 0x55

/-- The message of each operation, first byte its opcode: the formats of R72 to R76 and R79, byte by
byte. -/
def encode : Instr → List Byte
  | .sumClr => [0x10]
  | .sumByte b => [0x11, b]
  | .sumGet => [0x12]
  | .csum1 s => 0x13 :: s
  | .crcClr => [0x20]
  | .crcByte b => [0x21, b]
  | .crcGet => [0x22]
  | .crc16 s => 0x23 :: s
  | .pverSet v => [0x30, v]
  | .pverGet => [0x31]
  | .idGet => [0x32]
  | .mapRd k => [0x33, k]
  | .envNewa s => 0x40 :: s
  | .envNewb resp s => 0x41 :: lo8 resp :: hi8 resp :: s
  | .envConsume => [0x42]
  | .envStat => [0x43]
  | .envRead => [0x44]
  | .f1Frame resp body => 0x50 :: lo8 resp :: hi8 resp :: body
  | .f2Frame id instr resp params => 0x51 :: id :: instr :: lo8 resp :: hi8 resp :: params
  | .f1Check s => 0x52 :: s
  | .f2Check s => 0x53 :: s
  | .regRd d => [0x60, d.addressLow, d.addressHigh, d.length]
  | .regWr d ack data => 0x61 :: d.addressLow :: d.addressHigh :: d.length :: ack :: data
  | .regSetid newid ack => [0x62, newid, ack]
  | .regXtr d s => 0x63 :: d.addressLow :: d.addressHigh :: d.length :: s
  | .wireWrite => [0x03]
  | .wireRead => [0x04]
  | .wireStatus => [0x55]

/-- The `nbits / 8` bytes of a table word, the least significant first. -/
def tableBytes (nbits w : Nat) : List Byte :=
  (List.range (nbits / 8)).map fun k => BitVec.ofNat 8 (w >>> (8 * k))

/-- The first of the given numbers of zero operand bytes that makes the bytes a well-formed message. -/
def padZeros (bs : List Byte) : List Nat → List Byte
  | [] => bs
  | k :: ks =>
    match decode (bs ++ List.replicate k 0) with
    | .ok _ => bs ++ List.replicate k 0
    | .error _ => padZeros bs ks

/-- The command message a table word stands for: its bytes, then the zero operand bytes its format needs
(at most four, R76). A word that no zeros make an operation stands as it is (log 14). -/
def tableMessage (nbits w : Nat) : List Byte :=
  padZeros (tableBytes nbits w) [0, 1, 2, 3, 4]

/-- The row's instruction the decoders read from a table word: a command message by `decode`; a byte that
is no opcode but a wire instruction code by `decodeWire` (R88, log 8). -/
def decodeTableWord (nbits w : Nat) : Option Instr :=
  match decode (tableMessage nbits w) with
  | .ok i => some i
  | .error _ => if nbits = 8 then decodeWire (BitVec.ofNat 8 w) else none

end Sys2Proof
end

