-- ==== Sys2Proof/Config.lean ====
section
/-! DEFINITION. What an implementation fixes (00_scope.md R5) and the free values of the model. The
parameters are one record; the machine's state holds it, so a statement about every state is a statement
about every configuration. The constants below with no body are the OPEN parameters and the unspecified
values: nothing can evaluate them, and no statement can rest on what they are. -/
namespace Sys2Proof

/-- The two protocol versions, the values of `PVER` (10_state.md R24). -/
inductive Version where
  | v1
  | v2
deriving DecidableEq, Repr, Inhabited

/-- The parameters of 00_scope.md R5, with REGMAP, CRC_TABLE and CONV_* (10_state.md R27, R28, R34). -/
structure Params where
  /-- `CRC_TABLE`, 256 entries of 16 bits (R34). -/
  crcTable : Vector U16 256
  /-- `BUF_MAX`, capacity of the frame buffer in bytes. -/
  bufMax : Nat
  /-- `MSG_MAX`, longest command message in bytes. -/
  msgMax : Nat
  /-- `PVER_RESET`. -/
  pverReset : Version
  /-- `ID_RESET`. -/
  idReset : Byte
  /-- `REGMAP[0..7]` (R27). -/
  regmap : Vector Descriptor 8
  /-- `CONV_TORQUE`, an uninterpreted code (R28; DESIGN CHOICE, log 9). -/
  convTorque : Nat
  /-- `CONV_ANGLE` (as above). -/
  convAngle : Nat
  /-- `CONV_VELOCITY` (as above). -/
  convVelocity : Nat
  /-- `V1_MIN_PACKET`. -/
  v1MinPacket : Nat
  /-- `V1_SUM_START`, 0 or 2. -/
  v1SumStart : Nat
  /-- `V1_INSTR_READ`. -/
  v1InstrRead : Byte
  /-- `V1_INSTR_WRITE`. -/
  v1InstrWrite : Byte
  /-- `V2_ERR_OFFSET`. -/
  v2ErrOffset : Nat
  /-- `V2_DATA_OFFSET`. -/
  v2DataOffset : Nat
deriving DecidableEq, Repr

/-- The constraints on the parameters. The first five and `sumStart` are stated in 00_scope.md R5 and
D17; the last three are DEDUCED (log 10): without them a rule of the spec would read a byte its frame does
not have, or contradict 10_state.md R38 (a) or 45_framer_register.md R176. -/
structure Params.Wf (p : Params) : Prop where
  bufMax_ge : 14 ≤ p.bufMax
  bufMax_le : p.bufMax ≤ 65535
  msgMax_ge : p.bufMax + 5 ≤ p.msgMax
  regmap_length : ∀ k : Fin 8, 1 ≤ (p.regmap[k]).length.toNat
  sumStart : p.v1SumStart = 0 ∨ p.v1SumStart = 2
  v1MinPacket : 1 ≤ p.v1MinPacket ∧ p.v1MinPacket ≤ 8
  errOffset : 8 ≤ p.v2ErrOffset ∧ p.v2ErrOffset < p.v2DataOffset
  dataOffset : p.v2DataOffset ≤ 65278

/-- `BUF_MAX - 14`: OPEN (00_scope.md R5), any value that keeps `14 <= BUF_MAX <= 65535`. -/
opaque Config.bufMaxExtra : Fin 65522
/-- `MSG_MAX - (BUF_MAX + 5)`: OPEN (R5). -/
opaque Config.msgMaxExtra : Nat
/-- `PVER_RESET`: OPEN (R5). -/
opaque Config.pverReset : Version
/-- `ID_RESET`: OPEN (R5). -/
opaque Config.idReset : Byte
/-- The entries of `REGMAP`: OPEN (R5); the third component is `length - 1`, so that `length >= 1`. -/
opaque Config.regmapEntry : Nat → Byte × Byte × Fin 255
/-- `CONV_TORQUE`: OPEN, unread (R5). -/
opaque Config.convTorque : Nat
/-- `CONV_ANGLE`: OPEN, unread (R5). -/
opaque Config.convAngle : Nat
/-- `CONV_VELOCITY`: OPEN, unread (R5). -/
opaque Config.convVelocity : Nat
/-- `V1_INSTR_READ`: OPEN (R5). -/
opaque Config.v1InstrRead : Byte
/-- `V1_INSTR_WRITE`: OPEN (R5). -/
opaque Config.v1InstrWrite : Byte
/-- `SUM_ACC` after the k-th reset: unspecified, any byte (10_state.md R37; DESIGN CHOICE, log 6). -/
opaque Config.resetSumAcc : Nat → Byte
/-- `CRC_ACC` after the k-th reset: unspecified, any u16 (R37; DESIGN CHOICE, log 6). -/
opaque Config.resetCrcAcc : Nat → U16

end Sys2Proof
end

