-- ==== Sys2Proof/Machine/Constants.lean ====
section
/-! DEFINITION. The constants of 00_scope.md R4, the decided values of R5, and the parameters of the block
that `State.reset` starts. -/
namespace Sys2Proof.Machine

/-- `V1_HEADER` (R4). -/
def v1Header : List Byte := [0xFF, 0xFF]
/-- `V2_HEADER` (R4). -/
def v2Header : List Byte := [0xFF, 0xFF, 0xFD, 0x00]
/-- `V2_MIN_PACKET` (R4; 90_conflicts.md C2). -/
def v2MinPacket : Nat := 12
/-- `V2_MIN_INSTR_SEG` (R4): no rule depends on it. -/
def v2MinInstrSeg : Nat := 5
/-- `V2_MIN_RESP_SEG` (R4): no rule depends on it. -/
def v2MinRespSeg : Nat := 5
/-- `V2_CRC_LEN` (R4). -/
def v2CrcLen : Nat := 2
/-- `V1_CSUM_LEN` (R4). -/
def v1CsumLen : Nat := 1
/-- `V2_INSTR_WRITE` (R4, 30_encoding.md R87). -/
def v2InstrWrite : Byte := 0x03
/-- `V2_INSTR_READ` (R4, R87; 90_conflicts.md C3). -/
def v2InstrRead : Byte := 0x04
/-- `V2_INSTR_STATUS` (R4, R87). -/
def v2InstrStatus : Byte := 0x55
/-- `V2_ALERT` (R4). -/
def v2Alert : Byte := 0x80
/-- `V2_OFF_LEN_L` (R4). -/
def v2OffLenL : Nat := 5
/-- `V2_OFF_LEN_H` (R4). -/
def v2OffLenH : Nat := 6
/-- `V2_OFF_INSTR` (R4). -/
def v2OffInstr : Nat := 7
/-- `V2_OFF_PARAM` (R4). -/
def v2OffParam : Nat := 8
/-- `V2_OFF_ID` (R5, D19). -/
def v2OffId : Nat := 4
/-- `BROADCAST_ID` (R4): no operation treats it apart. -/
def broadcastId : Byte := 254
/-- `CRC_INIT` (R4). -/
def crcInit : U16 := 0x0000
/-- `ID_MAX` (R5, D11). -/
def idMax : Nat := 252
/-- `V1_OFF_ID` (R5, D18). -/
def v1OffId : Nat := 2
/-- `V1_OFF_LEN` (R5, D18). -/
def v1OffLen : Nat := 3
/-- `V1_OFF_INSTR` (R5, D18). -/
def v1OffInstr : Nat := 4
/-- `V1_OFF_PARAM` (R5, D18). -/
def v1OffParam : Nat := 5
/-- `V1_MIN_STATUS` (R5, D18). -/
def v1MinStatus : Nat := 6

/-- `V2_MIN_STATUS`, derived (R5): `V2_DATA_OFFSET + V2_CRC_LEN`. -/
def v2MinStatus (p : Params) : Nat := p.v2DataOffset + v2CrcLen

/-- A descriptor of the OPEN register map, its length at least 1 (R5). -/
def configuredDescriptor (k : Nat) : Descriptor :=
  ⟨(Config.regmapEntry k).1, (Config.regmapEntry k).2.1, BitVec.ofNat 8 ((Config.regmapEntry k).2.2.val + 1)⟩

/-- The parameters of the block that `State.reset` starts: OPEN ones left open, the others at the decided
default of R5 (DESIGN CHOICE, log 5, log 11). -/
def configured : Params where
  crcTable := defaultCrcTable
  bufMax := Config.bufMaxExtra.val + 14
  msgMax := Config.msgMaxExtra + (Config.bufMaxExtra.val + 14) + 5
  pverReset := Config.pverReset
  idReset := Config.idReset
  regmap := #v[configuredDescriptor 0, configuredDescriptor 1, configuredDescriptor 2, configuredDescriptor 3,
    configuredDescriptor 4, configuredDescriptor 5, configuredDescriptor 6, configuredDescriptor 7]
  convTorque := Config.convTorque
  convAngle := Config.convAngle
  convVelocity := Config.convVelocity
  v1MinPacket := 6
  v1SumStart := 0
  v1InstrRead := Config.v1InstrRead
  v1InstrWrite := Config.v1InstrWrite
  v2ErrOffset := 8
  v2DataOffset := 9

end Sys2Proof.Machine
end

