-- ==== Sys2Proof/Machine/State.lean ====
section
/-! DEFINITION. The state of the codec block (10_state.md R20), its reset, and the reasons a step can stop. -/
namespace Sys2Proof.Machine

/-- The life-cycle state of the envelope slot, `ENV_STATE` (10_state.md R30). -/
inductive EnvState where
  | empty
  | pending
  | consumed
deriving DecidableEq, Repr, Inhabited

/-- The outside party that sends a command (10_state.md R20); no operation sees it (60_exceptions.md R203). -/
inductive Party where
  | host
  | transport
deriving DecidableEq, Repr

/-- An input event of the block: a command message (30_encoding.md R70), or `Reset`
(70_reset_and_hazards.md R215). -/
inductive Input where
  | command (sender : Party) (message : List Byte)
  | reset
deriving DecidableEq, Repr

/-- The errors of 60_exceptions.md R191. None is a stop of the machine: each is answered with a result
message (R190, R202). -/
inductive Err where
  | invalidFrameSize
  | envelopeBusy
  | noEnvelope
  | bufferCapacity
  | badOperand
  | illegalCommand
  | badResponse (st : Byte)
deriving DecidableEq, Repr

/-- Reasons the model stops where the spec gives no value. Neither is met in a run from reset. -/
inductive Fault where
  /-- Raised by `ENV.READ` when `PKT_SIZE` exceeds `BUF_MAX`: `MemRead` is not defined there (00_scope.md
  R9). Safe: 10_state.md R38 (a) rules the state out. -/
  | bufferRange
  /-- Raised by `ENV.READ` when a byte of `BUF[0..PKT_SIZE)` was never written: its value is unspecified
  (10_state.md R33, log 7). Safe: no run reaches the state. -/
  | bufferUnwritten
deriving DecidableEq, Repr

/-- Inputs the model gives no step. -/
inductive Refusal where
  /-- Raised by an arm of `exec` whose instruction has no meaning yet; no arm raises it. Safe. -/
  | notModelled (mnemonic : String)
  /-- Raised by `step` for a message of length 0 or above `MSG_MAX`, which "cannot be delivered and is not a
  step of the block" (30_encoding.md R70, log 4). Safe. -/
  | undeliverable
deriving DecidableEq, Repr

/-- The frame buffer `BUF` (10_state.md R33): the bytes that have a value, at strictly rising offsets. An
offset not listed holds no value (log 7). -/
abbrev Memory := List Host.Cell

/-- The whole state: the registers of 10_state.md R20, the read-only parameters, and the model's own
`resets`, `inbox` and `outbox`. -/
structure State where
  /-- The parameters, with `REGMAP`, `CRC_TABLE` and `CONV_*` (R27, R28, R34, R36); written by nothing. -/
  params : Params
  /-- `SUM_ACC` (R21). -/
  sumAcc : Byte
  /-- `CRC_ACC` (R22). -/
  crcAcc : U16
  /-- `PVER` (R24). -/
  pver : Version
  /-- `MOTOR_ID` (R25). -/
  motorId : Byte
  /-- `ENV_STATE` (R30). -/
  envState : EnvState
  /-- `PKT_SIZE` (R31). -/
  pktSize : U16
  /-- `RESP_SIZE` (R32). -/
  respSize : U16
  /-- `BUF` (R33). -/
  buf : Memory
  /-- The model's own: resets so far, the index of the next unspecified accumulator values (log 6). -/
  resets : Nat
  /-- The model's own: inputs still to come, the next one first (log 1). -/
  inbox : List Input
  /-- The model's own: result messages sent, the oldest first (30_encoding.md R71, log 2). -/
  outbox : List (List Byte)
deriving DecidableEq, Repr

/-- What a step can answer. -/
abbrev StepResult := Host.Outcome State Fault Refusal

/-- `reset : Params -> State` (70_reset_and_hazards.md R215) with the table of 10_state.md R37; `k` is the
number of resets before, which picks the unspecified values of the accumulators (log 6). -/
def State.resetWith (p : Params) (k : Nat) : State where
  params := p
  sumAcc := Config.resetSumAcc k
  crcAcc := Config.resetCrcAcc k
  pver := p.pverReset
  motorId := p.idReset
  envState := .empty
  pktSize := 0
  respSize := 0
  buf := []
  resets := k + 1
  inbox := []
  outbox := []

/-- The block right after its first reset, its OPEN parameters left open (log 5). -/
def State.reset : State := State.resetWith configured 0

end Sys2Proof.Machine
end

