-- ==== Sys2Proof/Machine/Checks.lean ====
section
/-! DEFINITION. The pure functions of the checksum engine and the CRC-16 generator (00_scope.md R11): they
read no register but the table, and write none (10_state.md R35). -/
namespace Sys2Proof.Machine

/-- The sum of `csum1`, modulo 256, from a starting value (40_checksum_engine.md R100). -/
def sumBytes (acc : Byte) : List Byte → Byte
  | [] => acc
  | b :: bs => sumBytes (acc + b) bs

/-- `csum1(s)` (R100; the law it satisfies is that of 90_conflicts.md C1). -/
def csum1 (s : List Byte) : Byte := ~~~ (sumBytes 0 s)

/-- `TabRead(i)` (00_scope.md R9, 10_state.md R34). -/
def tabRead (p : Params) (i : Byte) : U16 := p.crcTable[i.toNat]'(i.isLt)

/-- `crc_step(acc, b)` (41_crc16_generator.md R111). -/
def crcStep (p : Params) (acc : U16) (b : Byte) : U16 :=
  (acc <<< 8) ^^^ tabRead p (hi8 acc ^^^ b)

/-- The recurrence of `crc16` from a starting value (R112). -/
def crcBytes (p : Params) (acc : U16) : List Byte → U16
  | [] => acc
  | b :: bs => crcBytes p (crcStep p acc b) bs

/-- `crc16(s)` (R112). -/
def crc16 (p : Params) (s : List Byte) : U16 := crcBytes p crcInit s

end Sys2Proof.Machine
end

