-- ==== Sys2Proof/Machine/Frames.lean ====
section
/-! DEFINITION. The wire frames the framer builds (30_encoding.md R77, R78). Both functions are pure. -/
namespace Sys2Proof.Machine

/-- A v1 frame without its footer (44_framer_generic.md R150). -/
def frame1Head (body : List Byte) : List Byte := v1Header ++ body

/-- `frame1(body)` (R150). -/
def frame1 (p : Params) (body : List Byte) : List Byte :=
  frame1Head body ++ [csum1 (slice (frame1Head body) p.v1SumStart (frame1Head body).length)]

/-- A v2 frame without its footer: header, identifier, length value `np + 3` low byte first, instruction,
parameters (44_framer_generic.md R153, 30_encoding.md R82). -/
def frame2Head (id instr : Byte) (params : List Byte) : List Byte :=
  v2Header ++ [id] ++ le2 (BitVec.ofNat 16 (params.length + 3)) ++ [instr] ++ params

/-- `frame2(id, instr, params)` (R153); its domain is `np + 3 <= 65535`. -/
def frame2 (p : Params) (id instr : Byte) (params : List Byte) : List Byte :=
  frame2Head id instr params ++ le2 (crc16 p (frame2Head id instr params))

end Sys2Proof.Machine
end

