-- ==== Sys2Proof/Machine/Flags.lean ====
section
/-! DEFINITION. The block has no flags register (10_state.md R29). What takes its place is the check status
byte, a result value with one bit per defect (44_framer_generic.md R155). -/
namespace Sys2Proof.Machine

/-- `TOO_SHORT` (R155). -/
def stTooShort : Byte := 0x01
/-- `BAD_HEADER`. -/
def stBadHeader : Byte := 0x02
/-- `NOT_STATUS`. -/
def stNotStatus : Byte := 0x04
/-- `BAD_CHECK`. -/
def stBadCheck : Byte := 0x08
/-- `BAD_LENGTH`. -/
def stBadLength : Byte := 0x10
/-- `ALERT`. -/
def stAlert : Byte := 0x80

/-- A defect's mask when the defect is there. -/
def flagIf (defect : Bool) (mask : Byte) : Byte := if defect then mask else 0

/-- The check status byte of a received v1 status frame (R156). -/
def check1 (p : Params) (s : List Byte) : Byte :=
  if s.length < v1MinStatus then stTooShort
  else
    flagIf (byteAt s 0 != 0xFF || byteAt s 1 != 0xFF) stBadHeader
    ||| flagIf (byteAt s (s.length - 1) != csum1 (slice s p.v1SumStart (s.length - 1))) stBadCheck
    ||| flagIf ((byteAt s v1OffLen).toNat != s.length - 4) stBadLength

/-- The check status byte of a received v2 status frame (R157). -/
def check2 (p : Params) (s : List Byte) : Byte :=
  if s.length < v2MinStatus p then stTooShort
  else
    flagIf (slice s 0 4 != v2Header) stBadHeader
    ||| flagIf (byteAt s v2OffInstr != v2InstrStatus) stNotStatus
    ||| flagIf (u16le (byteAt s (s.length - 2)) (byteAt s (s.length - 1)) != crc16 p (slice s 0 (s.length - 2)))
        stBadCheck
    ||| flagIf ((u16le (byteAt s v2OffLenL) (byteAt s v2OffLenH)).toNat != s.length - 7) stBadLength
    ||| flagIf (byteAt s p.v2ErrOffset &&& v2Alert != 0) stAlert

/-- The check of the version `PVER` selects (45_framer_register.md R170, R175). -/
def checkFor (p : Params) : Version → List Byte → Byte
  | .v1 => check1 p
  | .v2 => check2 p

end Sys2Proof.Machine
end

