-- ==== Sys2Proof/Machine/Operands.lean ====
section
/-! DEFINITION. The checks on operand values (60_exceptions.md R195) and the sizes they are checked
against. -/
namespace Sys2Proof.Machine

/-- `valid_desc(d)` (42_descriptor_and_config.md R129). -/
def validDesc (d : Descriptor) : Bool := decide (1 ≤ d.length.toNat)

/-- The ack operand is 0 or 1 (30_encoding.md R79). -/
def validAck (ack : Byte) : Bool := decide (ack.toNat ≤ 1)

/-- The version an operand byte names (42_descriptor_and_config.md R125). -/
def versionOf (v : Byte) : Option Version :=
  if v = 1 then some .v1 else if v = 2 then some .v2 else none

/-- The value of `PVER` as a byte (R126). -/
def versionByte : Version → Byte
  | .v1 => 1
  | .v2 => 2

/-- `code(ENV_STATE)` (10_state.md R30, 43_packet_envelope.md R141). -/
def envCode : EnvState → Byte
  | .empty => 0
  | .pending => 1
  | .consumed => 2

/-- `minpkt(v)` (43_packet_envelope.md R136). -/
def minpkt (p : Params) : Version → Nat
  | .v1 => p.v1MinPacket
  | .v2 => v2MinPacket

/-- `resp_size(v, nd)` (45_framer_register.md R171). -/
def respSize (p : Params) (v : Version) (nd : Nat) : Nat :=
  match v with
  | .v2 => p.v2DataOffset + nd + v2CrcLen
  | .v1 => v1OffParam + nd + v1CsumLen

/-- The expected response of a write: an acknowledgement when `ack = 1`, none otherwise (R173). -/
def ackRespSize (p : Params) (v : Version) (ack : Byte) : Nat :=
  if ack = 1 then respSize p v 0 else 0

/-- `REGMAP[k]`, for `k` in `0..7` (10_state.md R27). -/
def regmapRead (p : Params) (k : Byte) : Option Descriptor := p.regmap[k.toNat]?

end Sys2Proof.Machine
end

