-- ==== Sys2Proof/Machine/Ops.lean ====
section
/-! DEFINITION. The operations every meaning is built from: writes of registers, the frame buffer, the two
ways an operation ends (00_scope.md R10), building an envelope (43_packet_envelope.md R137), and `Reset`. -/
namespace Sys2Proof.Machine

/-- `SUM_ACC <- v`. -/
def State.setSumAcc (s : State) (v : Byte) : State := { s with sumAcc := v }

/-- `CRC_ACC <- v`. -/
def State.setCrcAcc (s : State) (v : U16) : State := { s with crcAcc := v }

/-- `PVER <- v`. -/
def State.setPver (s : State) (v : Version) : State := { s with pver := v }

/-- `MOTOR_ID <- v`. -/
def State.setMotorId (s : State) (v : Byte) : State := { s with motorId := v }

/-- One result message is sent (30_encoding.md R71). -/
def State.emit (s : State) (m : List Byte) : State := { s with outbox := s.outbox ++ [m] }

/-- The next input is taken. -/
def State.setInbox (s : State) (rest : List Input) : State := { s with inbox := rest }

/-- The byte at an offset of the buffer, none where nothing has written one. -/
def memGet : Memory → Nat → Option Byte
  | [], _ => none
  | (a', b) :: r, a => if a = a' then some b else memGet r a

/-- One byte written at an offset, the offsets kept strictly rising. -/
def memPut : Memory → Nat → Byte → Memory
  | [], a, b => [(a, b)]
  | (a', b') :: r, a, b =>
    if a < a' then (a, b) :: (a', b') :: r
    else if a = a' then (a, b) :: r
    else (a', b') :: memPut r a b

/-- `MemWrite(a, |s|, s)` (00_scope.md R9): every caller has established `a + |s| <= BUF_MAX`. -/
def memWrite (m : Memory) (a : Nat) : List Byte → Memory
  | [] => m
  | b :: bs => memWrite (memPut m a b) (a + 1) bs

/-- `n` bytes from offset `a` on, none where one of them was never written. -/
def memBytes (m : Memory) (a : Nat) : Nat → Option (List Byte)
  | 0 => some []
  | n + 1 =>
    match memGet m a, memBytes m (a + 1) n with
    | some b, some bs => some (b :: bs)
    | _, _ => none

/-- `MemRead(a, n)` (00_scope.md R9), defined for `a + n <= BUF_MAX` and bytes that have a value. -/
def memRead (s : State) (a n : Nat) : Except Fault (List Byte) :=
  if s.params.bufMax < a + n then .error .bufferRange
  else
    match memBytes s.buf a n with
    | some bs => .ok bs
    | none => .error .bufferUnwritten

/-- The canonical form of the buffer: offsets strictly rising. An unlisted offset has no value, so no
entry can equal what it reads as. -/
def Memory.wf : Memory → Bool
  | [] => true
  | [_] => true
  | (a, _) :: (a', b') :: r => decide (a < a') && Memory.wf ((a', b') :: r)

/-- The code of an error (60_exceptions.md R191). -/
def errCode : Err → Byte
  | .invalidFrameSize => 0x01
  | .envelopeBusy => 0x02
  | .noEnvelope => 0x03
  | .bufferCapacity => 0x04
  | .badOperand => 0x05
  | .illegalCommand => 0x06
  | .badResponse _ => 0x07

/-- The result message of an error: its code, and after `BadResponse` the check status byte (30_encoding.md
R71). -/
def errMessage (e : Err) : List Byte :=
  match e with
  | .badResponse st => [errCode e, st]
  | _ => [errCode e]

/-- `return Ok(p)`: result message `[0x00] ++ p` (00_scope.md R10, 30_encoding.md R71). -/
def finish (p : List Byte) (s : State) : StepResult := .next (s.emit (0x00 :: p))

/-- `raise E(info)`, the block's only exception entry (60_exceptions.md R202): nothing of the state is
written, the result message goes out, the block is ready for the next command. There is no return from it
(R204). -/
def raise (e : Err) (s : State) : StepResult := .next (s.emit (errMessage e))

/-- An operation that either raises or ends well in a changed state with an empty payload. -/
def finishOr (r : Except Err State) (s : State) : StepResult :=
  match r with
  | .ok t => finish [] t
  | .error e => raise e s

/-- The four writes of `env_build` (43_packet_envelope.md R137). -/
def State.openEnvelope (s : State) (frame : List Byte) (resp : U16) : State :=
  { s with
    buf := memWrite s.buf 0 frame
    pktSize := BitVec.ofNat 16 frame.length
    respSize := resp
    envState := .pending }

/-- The writes of `ENV.CONSUME`; every byte of `BUF` becomes unspecified (R140, log 7). -/
def State.closeEnvelope (s : State) : State :=
  { s with envState := .consumed, pktSize := 0, respSize := 0, buf := [] }

/-- `env_build(v, frame, resp)`: three tests in this order, then four writes (R137). -/
def envBuild (v : Version) (frame : List Byte) (resp : U16) (s : State) : Except Err State :=
  if frame.length < minpkt s.params v then .error .invalidFrameSize
  else if s.params.bufMax < frame.length then .error .bufferCapacity
  else if s.envState = .pending then .error .envelopeBusy
  else .ok (s.openEnvelope frame resp)

/-- The `Reset` event (70_reset_and_hazards.md R215 to R218): the table of 10_state.md R37; the parameters
stay, and so do the inputs still to come and the results already sent (log 17). -/
def State.resetEvent (s : State) : State :=
  { State.resetWith s.params s.resets with inbox := s.inbox, outbox := s.outbox }

end Sys2Proof.Machine
end

