-- ==== Sys2Proof/Machine/Checksum.lean ====
section
/-! DEFINITION. The one's-complement checksum engine (40_checksum_engine.md). -/
namespace Sys2Proof.Machine

/-- `SUM.CLR` (R101). -/
def execSumClr (s : State) : StepResult := finish [] (s.setSumAcc 0)

/-- `SUM.BYTE b` (R102): the carry out of bit 7 is discarded. -/
def execSumByte (b : Byte) (s : State) : StepResult := finish [] (s.setSumAcc (s.sumAcc + b))

/-- `SUM.GET` (R103). -/
def execSumGet (s : State) : StepResult := finish [~~~ s.sumAcc] s

/-- `CSUM1 s` (R104): `SUM_ACC` is neither read nor changed. -/
def execCsum1 (bytes : List Byte) (s : State) : StepResult := finish [csum1 bytes] s

end Sys2Proof.Machine
end

