-- ==== Sys2Proof/Machine/Crc.lean ====
section
/-! DEFINITION. The CRC-16 generator (41_crc16_generator.md). -/
namespace Sys2Proof.Machine

/-- `CRC.CLR` (R114). -/
def execCrcClr (s : State) : StepResult := finish [] (s.setCrcAcc crcInit)

/-- `CRC.BYTE b` (R115). -/
def execCrcByte (b : Byte) (s : State) : StepResult :=
  finish [] (s.setCrcAcc (crcStep s.params s.crcAcc b))

/-- `CRC.GET` (R116): low byte first. -/
def execCrcGet (s : State) : StepResult := finish (le2 s.crcAcc) s

/-- `CRC16 s` (R117): `CRC_ACC` is neither read nor changed. -/
def execCrc16 (bytes : List Byte) (s : State) : StepResult := finish (le2 (crc16 s.params bytes)) s

end Sys2Proof.Machine
end

