-- ==== Sys2Proof/Machine/Descriptor.lean ====
section
/-! DEFINITION. Descriptor and configuration operations (42_descriptor_and_config.md). -/
namespace Sys2Proof.Machine

/-- `PVER.SET v` (R125). -/
def execPverSet (v : Byte) (s : State) : StepResult :=
  match versionOf v with
  | none => raise .badOperand s
  | some w => finish [] (s.setPver w)

/-- `PVER.GET` (R126). -/
def execPverGet (s : State) : StepResult := finish [versionByte s.pver] s

/-- `ID.GET` (R127). -/
def execIdGet (s : State) : StepResult := finish [s.motorId] s

/-- `MAP.RD k` (R128). -/
def execMapRd (k : Byte) (s : State) : StepResult :=
  match regmapRead s.params k with
  | none => raise .badOperand s
  | some d => finish [d.addressLow, d.addressHigh, d.length] s

end Sys2Proof.Machine
end

