-- ==== Sys2Proof/Machine/Envelope.lean ====
section
/-! DEFINITION. The packet envelope (43_packet_envelope.md). -/
namespace Sys2Proof.Machine

/-- `ENV.NEWA s` (R138). -/
def execEnvNewa (bytes : List Byte) (s : State) : StepResult :=
  finishOr (envBuild s.pver bytes 0 s) s

/-- `ENV.NEWB resp, s` (R139): the size test stands before the test of `resp`. -/
def execEnvNewb (resp : U16) (bytes : List Byte) (s : State) : StepResult :=
  if bytes.length < minpkt s.params s.pver then raise .invalidFrameSize s
  else if resp = 0 then raise .badOperand s
  else finishOr (envBuild s.pver bytes resp s) s

/-- `ENV.CONSUME` (R140). -/
def execEnvConsume (s : State) : StepResult :=
  if s.envState = .pending then finish [] s.closeEnvelope else raise .noEnvelope s

/-- `ENV.STAT` (R141). -/
def execEnvStat (s : State) : StepResult :=
  finish ([envCode s.envState] ++ le2 s.pktSize ++ le2 s.respSize) s

/-- `ENV.READ` (R143). -/
def execEnvRead (s : State) : StepResult :=
  if s.envState = .pending then
    match memRead s 0 s.pktSize.toNat with
    | .ok bytes => finish (le2 s.respSize ++ bytes) s
    | .error f => .fault f
  else raise .noEnvelope s

end Sys2Proof.Machine
end

