-- ==== Sys2Proof/Machine/Framer.lean ====
section
/-! DEFINITION. The packet framer, generic operations (44_framer_generic.md). `PVER` is neither read nor
written by any of them. -/
namespace Sys2Proof.Machine

/-- `F1.FRAME resp, body` (R151). -/
def execF1Frame (resp : U16) (body : List Byte) (s : State) : StepResult :=
  finishOr (envBuild .v1 (frame1 s.params body) resp s) s

/-- `F2.FRAME id, instr, resp, params` (R152). -/
def execF2Frame (id instr : Byte) (resp : U16) (params : List Byte) (s : State) : StepResult :=
  if params.length + 10 < v2MinPacket then raise .invalidFrameSize s
  else if 0xFFFF < params.length + 3 then raise .badOperand s
  else finishOr (envBuild .v2 (frame2 s.params id instr params) resp s) s

/-- `F1.CHECK s` (R156). -/
def execF1Check (bytes : List Byte) (s : State) : StepResult := finish [check1 s.params bytes] s

/-- `F2.CHECK s` (R157). -/
def execF2Check (bytes : List Byte) (s : State) : StepResult := finish [check2 s.params bytes] s

end Sys2Proof.Machine
end

