-- ==== Sys2Proof/Machine/Register.lean ====
section
/-! DEFINITION. The packet framer, register-level operations (45_framer_register.md). Each dispatches once
on `PVER` (R170). -/
namespace Sys2Proof.Machine

/-- The frame that reads `d`: v2 `[aL, aH, len, 0x00]`, v1 `[aL, len]` with a one-byte address (R172). -/
def readFrame (s : State) (d : Descriptor) : Except Err (List Byte) :=
  match s.pver with
  | .v2 => .ok (frame2 s.params s.motorId v2InstrRead [d.addressLow, d.addressHigh, d.length, 0x00])
  | .v1 =>
    if d.addressHigh = 0 then
      .ok (frame1 s.params [s.motorId, 0x04, s.params.v1InstrRead, d.addressLow, d.length])
    else .error .badOperand

/-- The frame that writes `data` to `d`: v2 `[aL, aH] ++ data`, v1 `[aL] ++ data` with length byte `len + 3`
(R173, R174). -/
def writeFrame (s : State) (d : Descriptor) (data : List Byte) : Except Err (List Byte) :=
  match s.pver with
  | .v2 => .ok (frame2 s.params s.motorId v2InstrWrite ([d.addressLow, d.addressHigh] ++ data))
  | .v1 =>
    if d.addressHigh = 0 ∧ d.length.toNat + 3 ≤ 255 then
      .ok (frame1 s.params ([s.motorId, d.length + 3, s.params.v1InstrWrite, d.addressLow] ++ data))
    else .error .badOperand

/-- A request: the frame, then the envelope of the version it was framed for. -/
def buildRequest (f : Except Err (List Byte)) (resp : Nat) (s : State) : Except Err State :=
  match f with
  | .error e => .error e
  | .ok frame => envBuild s.pver frame (BitVec.ofNat 16 resp) s

/-- `REG.RD d` (R172). -/
def execRegRd (d : Descriptor) (s : State) : StepResult :=
  if validDesc d then
    finishOr (buildRequest (readFrame s d) (respSize s.params s.pver d.length.toNat) s) s
  else raise .badOperand s

/-- `REG.WR d, ack, data` (R173). Data of another length than `len` make the message malformed, which is
judged first (30_encoding.md R90, log 15). -/
def execRegWr (d : Descriptor) (ack : Byte) (data : List Byte) (s : State) : StepResult :=
  if data.length ≠ d.length.toNat then raise .illegalCommand s
  else if validDesc d && validAck ack then
    finishOr (buildRequest (writeFrame s d data) (ackRespSize s.params s.pver ack) s) s
  else raise .badOperand s

/-- The data of a set-ID frame: `newid` zero-extended to the id register's size, low byte first (R174). -/
def setidData (d : Descriptor) (newid : Byte) : List Byte :=
  newid :: List.replicate (d.length.toNat - 1) 0

/-- The `id` descriptor, `REGMAP[0]` (10_state.md R27). -/
def idDescriptor (p : Params) : Descriptor := p.regmap[0]

/-- `REG.SETID newid, ack` (R174): the frame carries the CURRENT identifier; `MOTOR_ID` is written only
when the envelope was built. -/
def execRegSetid (newid ack : Byte) (s : State) : StepResult :=
  if decide (newid.toNat ≤ idMax) && validAck ack then
    match buildRequest (writeFrame s (idDescriptor s.params) (setidData (idDescriptor s.params) newid))
        (ackRespSize s.params s.pver ack) s with
    | .ok t => finish [] (t.setMotorId newid)
    | .error e => raise e s
  else raise .badOperand s

/-- Offset of the first data byte in a status frame (R175). -/
def dataOffset (p : Params) : Version → Nat
  | .v2 => p.v2DataOffset
  | .v1 => v1OffParam

/-- The status byte `REG.XTR` judges: the check's, with `BAD_LENGTH` added when a frame that is not too
short has another size than the read expects (R175). -/
def xtrStatus (p : Params) (v : Version) (d : Descriptor) (bytes : List Byte) : Byte :=
  checkFor p v bytes
  ||| flagIf (checkFor p v bytes &&& stTooShort == 0 && bytes.length != respSize p v d.length.toNat) stBadLength

/-- `REG.XTR d, s` (R175). -/
def execRegXtr (d : Descriptor) (bytes : List Byte) (s : State) : StepResult :=
  if validDesc d && (s.pver == .v2 || d.addressHigh == 0) then
    if xtrStatus s.params s.pver d bytes = 0 then
      finish (slice bytes (dataOffset s.params s.pver) (dataOffset s.params s.pver + d.length.toNat)) s
    else raise (.badResponse (xtrStatus s.params s.pver d bytes)) s
  else raise .badOperand s

end Sys2Proof.Machine
end

