-- ==== Sys2Proof/Machine/Wire.lean ====
section
/-! DEFINITION. The three rows of the opcode table that are wire instruction codes (30_encoding.md R87).
As commands their opcodes are illegal (R88, R89): each raises `IllegalCommand` (log 8). -/
namespace Sys2Proof.Machine

/-- Opcode `0x03` as a command (R88, R89). -/
def execWireWrite (s : State) : StepResult := raise .illegalCommand s

/-- Opcode `0x04` as a command (R88, R89). -/
def execWireRead (s : State) : StepResult := raise .illegalCommand s

/-- Opcode `0x55` as a command (R88, R89). -/
def execWireStatus (s : State) : StepResult := raise .illegalCommand s

end Sys2Proof.Machine
end

