-- ==== Sys2Proof/Machine/Dispatch.lean ====
section
/-! DEFINITION. One arm per operation: the call of its meaning. -/
namespace Sys2Proof.Machine

/-- The meaning of each operation. -/
def exec (i : Instr) (s : State) : Host.Outcome State Fault Refusal :=
  match i with
  | .sumClr => Sys2Proof.Machine.execSumClr s
  | .sumByte b => Sys2Proof.Machine.execSumByte b s
  | .sumGet => Sys2Proof.Machine.execSumGet s
  | .csum1 bytes => Sys2Proof.Machine.execCsum1 bytes s
  | .crcClr => Sys2Proof.Machine.execCrcClr s
  | .crcByte b => Sys2Proof.Machine.execCrcByte b s
  | .crcGet => Sys2Proof.Machine.execCrcGet s
  | .crc16 bytes => Sys2Proof.Machine.execCrc16 bytes s
  | .pverSet v => Sys2Proof.Machine.execPverSet v s
  | .pverGet => Sys2Proof.Machine.execPverGet s
  | .idGet => Sys2Proof.Machine.execIdGet s
  | .mapRd k => Sys2Proof.Machine.execMapRd k s
  | .envNewa bytes => Sys2Proof.Machine.execEnvNewa bytes s
  | .envNewb resp bytes => Sys2Proof.Machine.execEnvNewb resp bytes s
  | .envConsume => Sys2Proof.Machine.execEnvConsume s
  | .envStat => Sys2Proof.Machine.execEnvStat s
  | .envRead => Sys2Proof.Machine.execEnvRead s
  | .f1Frame resp body => Sys2Proof.Machine.execF1Frame resp body s
  | .f2Frame id instr resp params => Sys2Proof.Machine.execF2Frame id instr resp params s
  | .f1Check bytes => Sys2Proof.Machine.execF1Check bytes s
  | .f2Check bytes => Sys2Proof.Machine.execF2Check bytes s
  | .regRd d => Sys2Proof.Machine.execRegRd d s
  | .regWr d ack data => Sys2Proof.Machine.execRegWr d ack data s
  | .regSetid newid ack => Sys2Proof.Machine.execRegSetid newid ack s
  | .regXtr d bytes => Sys2Proof.Machine.execRegXtr d bytes s
  | .wireWrite => Sys2Proof.Machine.execWireWrite s
  | .wireRead => Sys2Proof.Machine.execWireRead s
  | .wireStatus => Sys2Proof.Machine.execWireStatus s

end Sys2Proof.Machine
end

