-- ==== Sys2Proof/Machine/Answer.lean ====
section
/-! DEFINITION. How the block takes one input: a command message is decoded and answered, `Reset` resets. -/
namespace Sys2Proof.Machine

/-- A message can be delivered when `1 <= |m| <= MSG_MAX` (30_encoding.md R70). -/
def deliverable (p : Params) (m : List Byte) : Bool :=
  decide (1 ≤ m.length) && decide (m.length ≤ p.msgMax)

/-- The answer to a delivered message: the operation it decodes to, or `IllegalCommand`, judged before
anything else (30_encoding.md R70, R90, 60_exceptions.md R197). -/
def answer (m : List Byte) (s : State) : StepResult :=
  match decode m with
  | .ok i => exec i s
  | .error _ => raise .illegalCommand s

/-- One input event (70_reset_and_hazards.md R215); the sender of a command makes no difference
(60_exceptions.md R203). -/
def takeInput (x : Input) (s : State) : StepResult :=
  match x with
  | .reset => .next s.resetEvent
  | .command _ m => if deliverable s.params m then answer m s else .refused .undeliverable

end Sys2Proof.Machine
end

