-- ==== Sys2Proof/Machine/Step.lean ====
section
/-! DEFINITION. One step of the block: it takes the next input. There is no program counter and no fetch
(10_state.md R23); the inputs that the outside parties send stand in `inbox` (log 1). -/
namespace Sys2Proof.Machine

/-- One step: the next input is taken; with no input nothing happens (log 3). -/
def step (s : State) : StepResult :=
  match s.inbox with
  | [] => .next s
  | x :: rest => takeInput x (s.setInbox rest)

/-- The message of a table word stands before every other input, so that the next step answers it. -/
def State.withFetchWord (s : State) (nbits w : Nat) : State :=
  s.setInbox (.command .host (tableMessage nbits w) :: s.inbox)

end Sys2Proof.Machine
end

