-- ==== Sys2Proof/Safety.lean ====
section
/-! DEFINITION. The terms the claims use: what an answer leaves, what a built envelope is, the invariant of
10_state.md R38, and runs. -/
namespace Sys2Proof.Machine

/-- The state after an answer that changes nothing but sends `m`: every read, and every error (00_scope.md
R10, 60_exceptions.md R190). -/
def replied (s : State) (m : List Byte) : State := { s with outbox := s.outbox ++ [m] }

/-- `t` is `s` after an envelope-building operation that returned Ok: the envelope is Pending with this
frame and response size, the result message is `00`, every other register is as before, and no byte of `BUF`
beyond the frame has changed (43_packet_envelope.md R137). -/
structure Built (s t : State) (frame : List Byte) (resp : Nat) : Prop where
  others : t = { s with
    envState := .pending, pktSize := t.pktSize, respSize := t.respSize, buf := t.buf,
    outbox := s.outbox ++ [[0x00]] }
  size : t.pktSize.toNat = frame.length
  response : t.respSize.toNat = resp
  stored : ∀ a, a < frame.length → memGet t.buf a = frame[a]?
  beyond : ∀ a, frame.length ≤ a → memGet t.buf a = memGet s.buf a

/-- The protocol version an envelope-building operation checks its frame against (43_packet_envelope.md
R136). -/
def checkedVersion (i : Instr) (active : Version) : Version :=
  match i with
  | .f1Frame _ _ => .v1
  | .f2Frame _ _ _ _ => .v2
  | _ => active

/-- The three requests of 45_framer_register.md and the descriptor each addresses. -/
def requestDescriptor (p : Params) : Instr → Option Descriptor
  | .regRd d => some d
  | .regWr d _ _ => some d
  | .regSetid _ _ => some (idDescriptor p)
  | _ => none

/-- The invariant of 10_state.md R38 (a), (b), (d), with what the model needs of the buffer: its canonical
form, inside `BUF_MAX`, every byte of a pending frame present, none kept after release (log 7). R38 (c) is the
type of `PVER`; (e) and (f) speak of two states. -/
structure BlockInv (s : State) : Prop where
  params_wf : s.params.Wf
  pending_size : s.envState = .pending → 1 ≤ s.pktSize.toNat ∧ s.pktSize.toNat ≤ s.params.bufMax
  idle_size : s.envState ≠ .pending → s.pktSize = 0 ∧ s.respSize = 0
  id_range : s.motorId = s.params.idReset ∨ s.motorId.toNat ≤ 252
  buf_wf : Memory.wf s.buf = true
  buf_range : ∀ a, (memGet s.buf a).isSome → a < s.params.bufMax
  buf_held : s.envState = .pending → ∀ a, a < s.pktSize.toNat → (memGet s.buf a).isSome
  buf_idle : s.envState ≠ .pending → s.buf = []

/-- Every input still to come can be delivered (30_encoding.md R70). -/
def InboxDeliverable (s : State) : Prop :=
  ∀ sender m, Input.command sender m ∈ s.inbox → 1 ≤ m.length ∧ m.length ≤ s.params.msgMax

/-- The byte an input feeds to the checksum engine: that of a `SUM.BYTE` (40_checksum_engine.md R103). -/
def sumFeed : Input → Option Byte
  | .command _ m =>
    match decode m with
    | .ok (.sumByte b) => some b
    | _ => none
  | .reset => none

/-- The byte an input feeds to the CRC-16 generator: that of a `CRC.BYTE` (41_crc16_generator.md R116). -/
def crcFeed : Input → Option Byte
  | .command _ m =>
    match decode m with
    | .ok (.crcByte b) => some b
    | _ => none
  | .reset => none

/-- An input that does not start an accumulation anew: any command of either party but the operation `clear`,
and no `Reset`. -/
def Continues (clear : Instr) (x : Input) : Prop :=
  ∃ p m, x = .command p m ∧ decode m ≠ .ok clear

/-- A run of `n` steps of the machine the host reads. -/
def run (n : Nat) (s : State) : StepResult := Host.Core.run Sys2Proof.core n s

end Sys2Proof.Machine
end

