-- ==== Sys2Proof/Certificates/Slice0/Obligations.lean ====
section
/-! DEFINITION. The statements about the codec block, from the numbered rules of spec/. Every result
statement is an equation `exec i s = .next …` (or gives the next state's every field), so it says both that
the operation completes and what it leaves unchanged. `replied s m` is `s` with the result message `m` sent. -/
open Sys2Proof Sys2Proof.Machine

/-! ### Encoding -/

/-- Decoding the message of a well-formed operation gives it back, every operand at every value. -/
def Obligations.DecodeReadsEveryEncodedOperation : Prop :=
  ∀ i : Instr, i.wf = true → decode (encode i) = .ok i

/-- A message that decodes is the encoding of the one operation it decodes to (R70: "decodes to exactly one
operation with its operands"), and that operation is well formed. -/
def Obligations.EveryAcceptedMessageIsItsEncoding : Prop :=
  ∀ (m : List Byte) (i : Instr), decode m = .ok i → encode i = m ∧ i.wf = true

/-- R89: an opcode in one of the seven listed ranges is illegal whatever follows it, and the answer to such a
message is `IllegalCommand` with nothing else changed; every other opcode is assigned: some message that
begins with it is an operation. -/
def Obligations.UnassignedOpcodesAreIllegal : Prop :=
  ∀ op : Byte,
    let unlisted := op.toNat ≤ 0x0F ∨ (0x14 ≤ op.toNat ∧ op.toNat ≤ 0x1F) ∨ (0x24 ≤ op.toNat ∧ op.toNat ≤ 0x2F) ∨
      (0x34 ≤ op.toNat ∧ op.toNat ≤ 0x3F) ∨ (0x45 ≤ op.toNat ∧ op.toNat ≤ 0x4F) ∨
      (0x54 ≤ op.toNat ∧ op.toNat ≤ 0x5F) ∨ 0x64 ≤ op.toNat
    (unlisted → ∀ rest : List Byte, decode (op :: rest) = .error (.unassignedOpcode op) ∧
      ∀ s : State, answer (op :: rest) s = .next (replied s [0x06])) ∧
    (¬ unlisted → ∃ rest i, decode (op :: rest) = .ok i)

/-- R90: a message whose length does not fit its opcode's format is answered with `IllegalCommand` and
nothing else changed, before any operand value is looked at; format S has no such message. The lengths are
those of the whole message `op :: rest`. -/
def Obligations.MisfitLengthsAreIllegal : Prop :=
  ∀ (op : Byte) (rest : List Byte),
    let len := (op :: rest).length
    let malformed := decode (op :: rest) = .error (.malformedLength op) ∧
      ∀ s : State, answer (op :: rest) s = .next (replied s [0x06])
    (op ∈ ([0x10, 0x12, 0x20, 0x22, 0x31, 0x32, 0x42, 0x43, 0x44] : List Byte) → len ≠ 1 → malformed) ∧
    (op ∈ ([0x11, 0x21, 0x30, 0x33] : List Byte) → len ≠ 2 → malformed) ∧
    (op ∈ ([0x41, 0x50] : List Byte) → len < 3 → malformed) ∧
    (op = 0x51 → len < 5 → malformed) ∧
    (op = 0x60 → len ≠ 4 → malformed) ∧
    (op = 0x61 → (len < 5 ∨ len ≠ 5 + (byteAt (op :: rest) 3).toNat) → malformed) ∧
    (op = 0x62 → len ≠ 3 → malformed) ∧
    (op = 0x63 → len < 4 → malformed) ∧
    (op ∈ ([0x13, 0x23, 0x40, 0x52, 0x53] : List Byte) → ∃ i, decode (op :: rest) = .ok i)

/-- Words written out from the formats of R72 to R76 and R79 decode to the operations they stand for (a
sanity statement; the messages are those of spec/95_test_vectors.md). -/
def Obligations.WrittenOutMessagesDecode : Prop :=
  decode [0x11, 0xFF] = .ok (.sumByte 0xFF) ∧
  decode [0x23, 0xFF, 0x01] = .ok (.crc16 [0xFF, 0x01]) ∧
  decode [0x33, 0x04] = .ok (.mapRd 4) ∧
  decode [0x41, 0x0B, 0x01, 0xAA] = .ok (.envNewb 0x010B [0xAA]) ∧
  decode [0x51, 0x01, 0x04, 0x0D, 0x00, 0x1E, 0x00, 0x02, 0x00]
    = .ok (.f2Frame 0x01 0x04 13 [0x1E, 0x00, 0x02, 0x00]) ∧
  decode [0x60, 0x34, 0x12, 0x04] = .ok (.regRd ⟨0x34, 0x12, 4⟩) ∧
  decode [0x61, 0x1E, 0x00, 0x02, 0x00, 0x00, 0x02] = .ok (.regWr ⟨0x1E, 0x00, 2⟩ 0 [0x00, 0x02]) ∧
  decode [0x62, 0x05, 0x01] = .ok (.regSetid 5 1)

/-- The three wire codes are values of the instruction byte of a v2 frame, each its own (R87); as commands
they are illegal (R88, R89): the decoder of messages skips them, and asking for one answers
`IllegalCommand` and changes nothing. -/
def Obligations.WireCodesAreNoCommands : Prop :=
  decodeWire 0x03 = some .wireWrite ∧ decodeWire 0x04 = some .wireRead ∧ decodeWire 0x55 = some .wireStatus ∧
  (∀ b : Byte, b ≠ 0x03 → b ≠ 0x04 → b ≠ 0x55 → decodeWire b = none) ∧
  ∀ (i : Instr) (s : State), i = .wireWrite ∨ i = .wireRead ∨ i = .wireStatus →
    exec i s = .next (replied s [0x06]) ∧
    ∀ rest : List Byte, decode (opcode i :: rest) = .error (.unassignedOpcode (opcode i))

/-! ### Steps and reset -/

/-- A step with a deliverable message at the head of the inbox that decodes to `i` is `exec i` at the same
state with that message taken. With no input nothing happens (the model's choice, log 3). -/
def Obligations.StepRunsTheDecodedOperation : Prop :=
  (∀ (s : State) (sender : Party) (m : List Byte) (rest : List Input) (i : Instr),
    s.inbox = .command sender m :: rest → 1 ≤ m.length → m.length ≤ s.params.msgMax → decode m = .ok i →
    step s = exec i { s with inbox := rest }) ∧
  ∀ s : State, s.inbox = [] → step s = .next s

/-- A step with a deliverable message that is no operation takes the message, answers `IllegalCommand`, and
changes nothing else. -/
def Obligations.StepAnswersIllegalCommand : Prop :=
  ∀ (s : State) (sender : Party) (m : List Byte) (rest : List Input) (e : DecodeError),
    s.inbox = .command sender m :: rest → 1 ≤ m.length → m.length ≤ s.params.msgMax → decode m = .error e →
    step s = .next (replied { s with inbox := rest } [0x06])

/-- Which party sends a command makes no difference to the step. -/
def Obligations.SenderMakesNoDifference : Prop :=
  ∀ (s : State) (p q : Party) (m : List Byte) (rest : List Input),
    step { s with inbox := .command p m :: rest } = step { s with inbox := .command q m :: rest }

/-- R216, R217, R218: `Reset` discards the envelope (slot Empty, both sizes 0), sets `MOTOR_ID` to `ID_RESET`
(and `PVER` to `PVER_RESET`), and changes no parameter, so neither `CRC_TABLE`, `REGMAP` nor `CONV_*`. The
accumulators are unspecified (log 6) and nothing is said of them. The model's choices, no rule's: no byte of
`BUF`, whose bytes R216 only calls unspecified, has a value (log 7); the inputs still to come and the results
sent stay (log 17). -/
def Obligations.ResetDiscardsTheEnvelope : Prop :=
  ∀ (s : State) (rest : List Input), s.inbox = .reset :: rest →
    ∃ t, step s = .next t ∧
      t.envState = .empty ∧ t.pktSize = 0 ∧ t.respSize = 0 ∧ (∀ a, memGet t.buf a = none) ∧
      t.motorId = s.params.idReset ∧ t.pver = s.params.pverReset ∧ t.params = s.params ∧
      t.inbox = rest ∧ t.outbox = s.outbox

/-- The state right after the first reset. Of 10_state.md R37: the slot is Empty, both sizes are 0, `PVER` and
`MOTOR_ID` are the parameters' (open, log 12), the table is its configured contents (the decided default, log
11). The accumulators are unspecified (log 6) and nothing is said of them. The model's choices, no values of
R37's table: no byte of `BUF`, which R37 calls unspecified, has a value (log 7), no input waits (log 1), no
result has been sent (log 2). -/
def Obligations.ResetStateIsAsTheSpecSays : Prop :=
  State.reset.envState = .empty ∧ State.reset.pktSize = 0 ∧ State.reset.respSize = 0 ∧
  (∀ a, memGet State.reset.buf a = none) ∧
  State.reset.pver = State.reset.params.pverReset ∧ State.reset.motorId = State.reset.params.idReset ∧
  State.reset.params.crcTable = defaultCrcTable ∧ State.reset.inbox = [] ∧ State.reset.outbox = []

/-! ### Checksum engine -/

/-- R100: `csum1` is `255 - (Σ s[i] mod 256)`, and laws (a) to (d): the empty range, dependence on the sum
alone, the sum with its own checksum (0xFF, 90_conflicts.md C1), and order. -/
def Obligations.Csum1IsTheComplementOfTheSum : Prop :=
  ∀ s : List Byte,
    (csum1 s).toNat = 255 - (s.map BitVec.toNat).sum % 256 ∧
    csum1 [] = 0xFF ∧
    (∀ s' t : List Byte, (s.map BitVec.toNat).sum % 256 = (s'.map BitVec.toNat).sum % 256 →
      csum1 (s ++ t) = csum1 (s' ++ t)) ∧
    ((s ++ [csum1 s]).map BitVec.toNat).sum % 256 = 0xFF ∧
    ∀ s' : List Byte, s.Perm s' → csum1 s = csum1 s'

/-- R101: `SUM.CLR`. -/
def Obligations.SumClrClearsTheSum : Prop :=
  ∀ s : State,
    exec .sumClr s = .next { s with sumAcc := 0, outbox := s.outbox ++ [[0x00]] } ∧
    ∀ rest, answer (0x10 :: rest) s = if rest = [] then exec .sumClr s else .next (replied s [0x06])

/-- R102: `SUM.BYTE b`; the carry out of bit 7 is discarded. -/
def Obligations.SumByteAddsTheByte : Prop :=
  ∀ (s : State) (b : Byte),
    exec (.sumByte b) s
      = .next { s with sumAcc := BitVec.ofNat 8 ((s.sumAcc.toNat + b.toNat) % 256), outbox := s.outbox ++ [[0x00]] } ∧
    answer [0x11, b] s = exec (.sumByte b) s ∧
    ∀ rest : List Byte, rest.length ≠ 1 → answer (0x11 :: rest) s = .next (replied s [0x06])

/-- R103: `SUM.GET` answers the complement of the sum and leaves it alone. -/
def Obligations.SumGetAnswersTheComplement : Prop :=
  ∀ s : State,
    exec .sumGet s = .next (replied s [0x00, BitVec.ofNat 8 (255 - s.sumAcc.toNat)]) ∧
    ∀ rest, answer (0x12 :: rest) s = if rest = [] then exec .sumGet s else .next (replied s [0x06])

/-- R104: `CSUM1 s` answers `csum1(s)` for any sequence and touches nothing. -/
def Obligations.Csum1AnswersTheChecksum : Prop :=
  ∀ (s : State) (bytes : List Byte),
    exec (.csum1 bytes) s = .next (replied s [0x00, BitVec.ofNat 8 (255 - (bytes.map BitVec.toNat).sum % 256)]) ∧
    answer (0x13 :: bytes) s = exec (.csum1 bytes) s

/-- The law of R103, as runs. First: `SUM.CLR`, then `SUM.BYTE` for each byte, then `SUM.GET`, each from either
party, answers `csum1` of the bytes, whatever the sum held before, and nothing but `SUM_ACC` and the messages
changes. Second: the same with any other commands between, of every family and either party, malformed ones too
(no `SUM.CLR`, no `Reset`): the last result is `csum1` of the bytes the `SUM.BYTE`s among them fed, one result
stands for each command, and the invariant holds at the end. -/
def Obligations.StreamedSumEqualsOneShot : Prop :=
  (∀ (s : State) (p q : Party) (fed : List (Party × Byte)), s.params.Wf →
    s.inbox = .command p [0x10] :: (fed.map fun x => Input.command x.1 [0x11, x.2]) ++ [.command q [0x12]] →
    ∃ t, run (fed.length + 2) s = .next t ∧
      t = { s with
        sumAcc := t.sumAcc, inbox := [],
        outbox := s.outbox ++ List.replicate (fed.length + 1) [0x00] ++ [[0x00, csum1 (fed.map Prod.snd)]] }) ∧
  ∀ (s : State) (p q : Party) (between : List Input), BlockInv s → InboxDeliverable s →
    s.inbox = .command p [0x10] :: between ++ [.command q [0x12]] → (∀ x ∈ between, Continues .sumClr x) →
    ∃ t results, run (between.length + 2) s = .next t ∧ BlockInv t ∧ results.length = between.length + 1 ∧
      t.outbox = s.outbox ++ results ++ [[0x00, csum1 (between.filterMap sumFeed)]]

/-! ### CRC-16 generator -/

/-- R111: the recurrence in the document's own terms, numbers with the mask `0xFFFF`, and the equivalent with
`i = hi8(acc) ^ b`. -/
def Obligations.CrcStepIsTheRecurrence : Prop :=
  ∀ (p : Params) (acc : U16) (b : Byte),
    (crcStep p acc b).toNat
      = ((acc.toNat <<< 8) &&& 0xFFFF) ^^^ (tabRead p (BitVec.ofNat 8 (((acc.toNat >>> 8) ^^^ b.toNat) &&& 0xFF))).toNat ∧
    crcStep p acc b = (lo8 acc).setWidth 16 <<< 8 ^^^ tabRead p (hi8 acc ^^^ b)

/-- R112 laws (a) and (b), for every table. -/
def Obligations.Crc16StartsAtZeroAndFoldsByBytes : Prop :=
  ∀ p : Params, crc16 p [] = 0x0000 ∧
    ∀ (s : List Byte) (b : Byte), crc16 p (s ++ [b]) = crcStep p (crc16 p s) b

/-- R112 laws (d) and (e), for the default table: leading zeros do not matter, zeros give zero, and `crc16`
is linear. -/
def Obligations.Crc16OfDefaultTableIsLinear : Prop :=
  ∀ p : Params, p.crcTable = defaultCrcTable →
    (∀ s : List Byte, crc16 p (0x00 :: s) = crc16 p s) ∧
    (∀ n : Nat, crc16 p (List.replicate n 0x00) = 0) ∧
    ∀ s t : List Byte, s.length = t.length →
      crc16 p (List.zipWith (· ^^^ ·) s t) = crc16 p s ^^^ crc16 p t

/-- R112 law (f), for the default table: one changed byte changes the CRC. -/
def Obligations.Crc16OfDefaultTableSeesOneByte : Prop :=
  ∀ (p : Params) (front back : List Byte) (b c : Byte), p.crcTable = defaultCrcTable → b ≠ c →
    crc16 p (front ++ b :: back) ≠ crc16 p (front ++ c :: back)

/-- R112 law (g), for the default table: the residue is zero when the CRC is appended high byte first. -/
def Obligations.Crc16OfDefaultTableHasZeroResidue : Prop :=
  ∀ (p : Params) (s : List Byte), p.crcTable = defaultCrcTable →
    crc16 p (s ++ [hi8 (crc16 p s), lo8 (crc16 p s)]) = 0

/-- R113: the default table is what its generator gives, and the checks on a transcription: 256 distinct
entries, four of them by value, their exclusive-or, their sum, and `crc16` of the nine ASCII digits. -/
def Obligations.DefaultTableIsGeneratedAndChecks : Prop :=
  (∀ i : Byte, defaultCrcTable[i.toNat]'(i.isLt) = tableEntry i) ∧
  defaultCrcTable.toList.Nodup ∧
  defaultCrcTable[0] = 0x0000 ∧ defaultCrcTable[1] = 0x8005 ∧ defaultCrcTable[0x80] = 0x8303 ∧
  defaultCrcTable[0xFF] = 0x0202 ∧
  defaultCrcTable.toList.foldl (· ^^^ ·) 0 = 0x0000 ∧
  (defaultCrcTable.toList.map BitVec.toNat).sum = 4325248 ∧
  ∀ p : Params, p.crcTable = defaultCrcTable →
    crc16 p [0x31, 0x32, 0x33, 0x34, 0x35, 0x36, 0x37, 0x38, 0x39] = 0xFEE8

/-- R114: `CRC.CLR`. -/
def Obligations.CrcClrClearsTheCrc : Prop :=
  ∀ s : State,
    exec .crcClr s = .next { s with crcAcc := 0x0000, outbox := s.outbox ++ [[0x00]] } ∧
    ∀ rest, answer (0x20 :: rest) s = if rest = [] then exec .crcClr s else .next (replied s [0x06])

/-- R115: `CRC.BYTE b`; with the default table a zero byte leaves a zero accumulator at zero. -/
def Obligations.CrcByteFoldsTheByte : Prop :=
  ∀ (s : State) (b : Byte),
    exec (.crcByte b) s
      = .next { s with crcAcc := crcStep s.params s.crcAcc b, outbox := s.outbox ++ [[0x00]] } ∧
    (s.params.crcTable = defaultCrcTable → s.crcAcc = 0 →
      exec (.crcByte 0) s = .next (replied s [0x00])) ∧
    answer [0x21, b] s = exec (.crcByte b) s ∧
    ∀ rest : List Byte, rest.length ≠ 1 → answer (0x21 :: rest) s = .next (replied s [0x06])

/-- R116: `CRC.GET` answers the accumulator low byte first and leaves it alone. -/
def Obligations.CrcGetAnswersLowByteFirst : Prop :=
  ∀ s : State,
    exec .crcGet s
      = .next (replied s [0x00, BitVec.ofNat 8 (s.crcAcc.toNat % 256), BitVec.ofNat 8 (s.crcAcc.toNat / 256)]) ∧
    ∀ rest, answer (0x22 :: rest) s = if rest = [] then exec .crcGet s else .next (replied s [0x06])

/-- R117: `CRC16 s` answers `crc16(s)` low byte first for any sequence and touches nothing; the empty sequence
gives `00 00` for every table, zeros of any number give `00 00` and `CRC16 {01}` gives `05 80` for the default
table. -/
def Obligations.Crc16AnswersLowByteFirst : Prop :=
  ∀ (s : State) (bytes : List Byte),
    exec (.crc16 bytes) s = .next (replied s [0x00,
      BitVec.ofNat 8 ((crc16 s.params bytes).toNat % 256), BitVec.ofNat 8 ((crc16 s.params bytes).toNat / 256)]) ∧
    answer (0x23 :: bytes) s = exec (.crc16 bytes) s ∧
    exec (.crc16 []) s = .next (replied s [0x00, 0x00, 0x00]) ∧
    (s.params.crcTable = defaultCrcTable →
      (∀ n, exec (.crc16 (List.replicate n 0x00)) s = .next (replied s [0x00, 0x00, 0x00])) ∧
      exec (.crc16 [0x01]) s = .next (replied s [0x00, 0x05, 0x80]))

/-- The law of R116, as runs, for every table. First: `CRC.CLR`, then `CRC.BYTE` for each byte, then `CRC.GET`,
each from either party, answers `le2(crc16(s))`, whatever the accumulator held before, and nothing but `CRC_ACC`
and the messages changes. Second: the same with any other commands between, of every family and either party,
malformed ones too (no `CRC.CLR`, no `Reset`): the last result is `crc16` of the bytes the `CRC.BYTE`s among
them fed, one result stands for each command, and the invariant holds at the end. -/
def Obligations.StreamedCrcEqualsOneShot : Prop :=
  (∀ (s : State) (p q : Party) (fed : List (Party × Byte)), s.params.Wf →
    s.inbox = .command p [0x20] :: (fed.map fun x => Input.command x.1 [0x21, x.2]) ++ [.command q [0x22]] →
    ∃ t, run (fed.length + 2) s = .next t ∧
      t = { s with
        crcAcc := t.crcAcc, inbox := [],
        outbox := s.outbox ++ List.replicate (fed.length + 1) [0x00] ++
          [[0x00, lo8 (crc16 s.params (fed.map Prod.snd)), hi8 (crc16 s.params (fed.map Prod.snd))]] }) ∧
  ∀ (s : State) (p q : Party) (between : List Input), BlockInv s → InboxDeliverable s →
    s.inbox = .command p [0x20] :: between ++ [.command q [0x22]] → (∀ x ∈ between, Continues .crcClr x) →
    ∃ t results, run (between.length + 2) s = .next t ∧ BlockInv t ∧ results.length = between.length + 1 ∧
      t.outbox = s.outbox ++ results ++ [[0x00,
        lo8 (crc16 s.params (between.filterMap crcFeed)), hi8 (crc16 s.params (between.filterMap crcFeed))]]

/-! ### Descriptor and configuration -/

/-- R125: `PVER.SET v` writes 1 or 2 and refuses the rest. -/
def Obligations.PverSetSelectsOneOrTwo : Prop :=
  ∀ (s : State) (v : Byte),
    (v = 1 → exec (.pverSet v) s = .next { s with pver := .v1, outbox := s.outbox ++ [[0x00]] }) ∧
    (v = 2 → exec (.pverSet v) s = .next { s with pver := .v2, outbox := s.outbox ++ [[0x00]] }) ∧
    (v ≠ 1 → v ≠ 2 → exec (.pverSet v) s = .next (replied s [0x05])) ∧
    answer [0x30, v] s = exec (.pverSet v) s ∧
    ∀ rest : List Byte, rest.length ≠ 1 → answer (0x30 :: rest) s = .next (replied s [0x06])

/-- R126: `PVER.GET`; after a reset it answers `PVER_RESET`. -/
def Obligations.PverGetAnswersTheVersion : Prop :=
  ∀ s : State,
    exec .pverGet s = .next (replied s [0x00, match s.pver with | .v1 => 1 | .v2 => 2]) ∧
    exec .pverGet s.resetEvent
      = .next (replied s.resetEvent [0x00, match s.params.pverReset with | .v1 => 1 | .v2 => 2]) ∧
    ∀ rest, answer (0x31 :: rest) s = if rest = [] then exec .pverGet s else .next (replied s [0x06])

/-- R127: `ID.GET`; after a reset it answers `ID_RESET`, after a successful `REG.SETID n` it answers `n`, and no
other operation, nor a `REG.SETID` that did not succeed, changes what it answers. -/
def Obligations.IdGetAnswersTheIdentifier : Prop :=
  ∀ s : State,
    exec .idGet s = .next (replied s [0x00, s.motorId]) ∧
    exec .idGet s.resetEvent = .next (replied s.resetEvent [0x00, s.params.idReset]) ∧
    (∀ n ack t, exec (.regSetid n ack) s = .next t → t.outbox = s.outbox ++ [[0x00]] →
      exec .idGet t = .next (replied t [0x00, n])) ∧
    (∀ i t, exec i s = .next t → (∀ n ack, i ≠ .regSetid n ack) ∨ t.outbox ≠ s.outbox ++ [[0x00]] →
      exec .idGet t = .next (replied t [0x00, s.motorId])) ∧
    ∀ rest, answer (0x32 :: rest) s = if rest = [] then exec .idGet s else .next (replied s [0x06])

/-- R128: `MAP.RD k` answers the three fields of slot `k` for `k` in `0..7` and refuses the rest; with
well-formed parameters the third byte is never 0; no operation changes what a slot holds. -/
def Obligations.MapRdAnswersTheDescriptor : Prop :=
  ∀ (s : State) (k : Byte),
    (∀ h : k.toNat < 8, exec (.mapRd k) s = .next (replied s [0x00,
        (s.params.regmap[k.toNat]).addressLow, (s.params.regmap[k.toNat]).addressHigh,
        (s.params.regmap[k.toNat]).length]) ∧
      (s.params.Wf → (s.params.regmap[k.toNat]).length ≠ 0)) ∧
    (7 < k.toNat → exec (.mapRd k) s = .next (replied s [0x05])) ∧
    (∀ i t, exec i s = .next t → t.params.regmap = s.params.regmap) ∧
    answer [0x33, k] s = exec (.mapRd k) s ∧
    ∀ rest : List Byte, rest.length ≠ 1 → answer (0x33 :: rest) s = .next (replied s [0x06])

/-! ### Packet envelope -/

/-- R138: `ENV.NEWA s`: the three errors in their order, each with nothing changed, and the envelope built
otherwise, with no response expected. -/
def Obligations.EnvNewaBuildsVariantA : Prop :=
  ∀ (s : State) (bytes : List Byte), s.params.Wf →
    let min := match s.pver with | .v1 => s.params.v1MinPacket | .v2 => 12
    (bytes.length < min → exec (.envNewa bytes) s = .next (replied s [0x01])) ∧
    (min ≤ bytes.length → s.params.bufMax < bytes.length → exec (.envNewa bytes) s = .next (replied s [0x04])) ∧
    (min ≤ bytes.length → bytes.length ≤ s.params.bufMax → s.envState = .pending →
      exec (.envNewa bytes) s = .next (replied s [0x02])) ∧
    (min ≤ bytes.length → bytes.length ≤ s.params.bufMax → s.envState ≠ .pending →
      ∃ t, exec (.envNewa bytes) s = .next t ∧ Built s t bytes 0) ∧
    answer (0x40 :: bytes) s = exec (.envNewa bytes) s

/-- R139: `ENV.NEWB resp, s`: the four errors in their order, and the envelope built otherwise, with the
response size as given. -/
def Obligations.EnvNewbBuildsVariantB : Prop :=
  ∀ (s : State) (resp : U16) (bytes : List Byte), s.params.Wf →
    let min := match s.pver with | .v1 => s.params.v1MinPacket | .v2 => 12
    (bytes.length < min → exec (.envNewb resp bytes) s = .next (replied s [0x01])) ∧
    (min ≤ bytes.length → resp = 0 → exec (.envNewb resp bytes) s = .next (replied s [0x05])) ∧
    (min ≤ bytes.length → resp ≠ 0 → s.params.bufMax < bytes.length →
      exec (.envNewb resp bytes) s = .next (replied s [0x04])) ∧
    (min ≤ bytes.length → resp ≠ 0 → bytes.length ≤ s.params.bufMax → s.envState = .pending →
      exec (.envNewb resp bytes) s = .next (replied s [0x02])) ∧
    (min ≤ bytes.length → resp ≠ 0 → bytes.length ≤ s.params.bufMax → s.envState ≠ .pending →
      ∃ t, exec (.envNewb resp bytes) s = .next t ∧ Built s t bytes resp.toNat) ∧
    (∀ l h : Byte, resp = u16le l h → answer (0x41 :: l :: h :: bytes) s = exec (.envNewb resp bytes) s) ∧
    ∀ rest : List Byte, rest.length < 2 → answer (0x41 :: rest) s = .next (replied s [0x06])

/-- R140: `ENV.CONSUME` releases a Pending envelope, once: state Consumed, sizes 0, the buffer's bytes
unspecified (nothing is said of them). Otherwise, and so at a second one, it answers `NoEnvelope` and changes
nothing. -/
def Obligations.EnvConsumeReleasesOnce : Prop :=
  ∀ s : State,
    (s.envState = .pending → ∃ t, exec .envConsume s = .next t ∧
      t = { s with envState := .consumed, pktSize := 0, respSize := 0, buf := t.buf, outbox := s.outbox ++ [[0x00]] } ∧
      exec .envConsume t = .next (replied t [0x03])) ∧
    (s.envState ≠ .pending → exec .envConsume s = .next (replied s [0x03])) ∧
    ∀ rest, answer (0x42 :: rest) s = if rest = [] then exec .envConsume s else .next (replied s [0x06])

/-- R141: `ENV.STAT` answers the code of the slot's state and both sizes, low byte first; outside Pending both
sizes are 0 in every state with the invariant, and after a reset it answers five zeros. -/
def Obligations.EnvStatAnswersStateAndSizes : Prop :=
  ∀ s : State,
    exec .envStat s = .next (replied s [0x00,
      match s.envState with | .empty => 0 | .pending => 1 | .consumed => 2,
      BitVec.ofNat 8 (s.pktSize.toNat % 256), BitVec.ofNat 8 (s.pktSize.toNat / 256),
      BitVec.ofNat 8 (s.respSize.toNat % 256), BitVec.ofNat 8 (s.respSize.toNat / 256)]) ∧
    (BlockInv s → s.envState ≠ .pending →
      exec .envStat s = .next (replied s [0x00, if s.envState = .empty then 0 else 2, 0, 0, 0, 0])) ∧
    exec .envStat s.resetEvent = .next (replied s.resetEvent [0x00, 0, 0, 0, 0, 0]) ∧
    ∀ rest, answer (0x43 :: rest) s = if rest = [] then exec .envStat s else .next (replied s [0x06])

/-- R143: `ENV.READ` answers the response size and the frame's bytes, changes nothing, and answers
`NoEnvelope` outside Pending. The premise `BlockInv` (kept by every step: `StepKeepsTheInvariant`) rules out states no
run reaches, in which a byte of a pending frame was never written. -/
def Obligations.EnvReadAnswersTheFrame : Prop :=
  ∀ s : State, BlockInv s →
    (s.envState = .pending → ∃ bytes : List Byte, bytes.length = s.pktSize.toNat ∧
      (∀ a, a < s.pktSize.toNat → memGet s.buf a = bytes[a]?) ∧
      exec .envRead s = .next (replied s (0x00 :: (le2 s.respSize ++ bytes)))) ∧
    (s.envState ≠ .pending → exec .envRead s = .next (replied s [0x03])) ∧
    ∀ rest, answer (0x44 :: rest) s = if rest = [] then exec .envRead s else .next (replied s [0x06])

/-- An envelope once built is read back byte for byte, with its response size, and reading does not consume
it: after any build that `Built` describes. -/
def Obligations.BuiltEnvelopeReadsBack : Prop :=
  ∀ (s t : State) (frame : List Byte) (resp : Nat), Built s t frame resp → frame.length ≤ t.params.bufMax →
    exec .envRead t
      = .next (replied t (0x00 :: BitVec.ofNat 8 (resp % 256) :: BitVec.ofNat 8 (resp / 256) :: frame))

/-- While an envelope is Pending, every operation but `ENV.CONSUME` leaves the slot, both sizes and every byte
of the buffer as they are; a change of `PVER` too. -/
def Obligations.PendingEnvelopeSurvives : Prop :=
  ∀ (i : Instr) (s t : State), s.envState = .pending → i ≠ .envConsume → exec i s = .next t →
    t.envState = .pending ∧ t.pktSize = s.pktSize ∧ t.respSize = s.respSize ∧ ∀ a, memGet t.buf a = memGet s.buf a

/-! ### Packet framer, generic -/

/-- R150: `frame1`: header, body, and one footer byte that is the checksum from `V1_SUM_START` on; with
start 0 the footer is 2 greater, modulo 256, than with start 2. -/
def Obligations.Frame1IsHeaderBodyChecksum : Prop :=
  ∀ (p q : Params) (body : List Byte),
    frame1 p body = [0xFF, 0xFF] ++ body ++ [csum1 (([0xFF, 0xFF] ++ body).drop p.v1SumStart)] ∧
    (frame1 p body).length = body.length + 3 ∧
    (p.v1SumStart = 0 → q.v1SumStart = 2 →
      ∃ c : Byte, frame1 q body = [0xFF, 0xFF] ++ body ++ [c] ∧ frame1 p body = [0xFF, 0xFF] ++ body ++ [c + 2])

/-- R151: `F1.FRAME resp, body`: the errors in their order, and the v1 frame in a new envelope otherwise,
whatever `PVER` holds. -/
def Obligations.F1FrameBuildsTheFrame : Prop :=
  ∀ (s : State) (resp : U16) (body : List Byte), s.params.Wf →
    (body.length + 3 < s.params.v1MinPacket → exec (.f1Frame resp body) s = .next (replied s [0x01])) ∧
    (s.params.v1MinPacket ≤ body.length + 3 → s.params.bufMax < body.length + 3 →
      exec (.f1Frame resp body) s = .next (replied s [0x04])) ∧
    (s.params.v1MinPacket ≤ body.length + 3 → body.length + 3 ≤ s.params.bufMax → s.envState = .pending →
      exec (.f1Frame resp body) s = .next (replied s [0x02])) ∧
    (s.params.v1MinPacket ≤ body.length + 3 → body.length + 3 ≤ s.params.bufMax → s.envState ≠ .pending →
      ∃ t, exec (.f1Frame resp body) s = .next t ∧ Built s t (frame1 s.params body) resp.toNat) ∧
    (∀ l h : Byte, resp = u16le l h → answer (0x50 :: l :: h :: body) s = exec (.f1Frame resp body) s) ∧
    ∀ rest : List Byte, rest.length < 2 → answer (0x50 :: rest) s = .next (replied s [0x06])

/-- R153: `frame2`, byte by byte, inside its domain `np + 3 <= 65535`, and the round-trip law of its
footer. -/
def Obligations.Frame2IsHeaderLengthParametersCrc : Prop :=
  ∀ (p : Params) (id instr : Byte) (params : List Byte), params.length + 3 ≤ 65535 →
    let len := params.length + 3
    let f := frame2 p id instr params
    let before := [0xFF, 0xFF, 0xFD, 0x00, id, BitVec.ofNat 8 (len % 256), BitVec.ofNat 8 (len / 256), instr] ++ params
    f = before ++ [lo8 (crc16 p before), hi8 (crc16 p before)] ∧
    f.length = params.length + 10 ∧
    crc16 p (slice f 0 (f.length - 2)) = u16le (byteAt f (f.length - 2)) (byteAt f (f.length - 1))

/-- R152: `F2.FRAME id, instr, resp, params`: the errors in their order, and the v2 frame in a new envelope
otherwise, whatever `PVER` holds. -/
def Obligations.F2FrameBuildsTheFrame : Prop :=
  ∀ (s : State) (id instr : Byte) (resp : U16) (params : List Byte), s.params.Wf →
    let i := Instr.f2Frame id instr resp params
    (params.length < 2 → exec i s = .next (replied s [0x01])) ∧
    (65532 < params.length → exec i s = .next (replied s [0x05])) ∧
    (2 ≤ params.length → params.length ≤ 65532 → s.params.bufMax < params.length + 10 →
      exec i s = .next (replied s [0x04])) ∧
    (2 ≤ params.length → params.length + 10 ≤ s.params.bufMax → s.envState = .pending →
      exec i s = .next (replied s [0x02])) ∧
    (2 ≤ params.length → params.length + 10 ≤ s.params.bufMax → s.envState ≠ .pending →
      ∃ t, exec i s = .next t ∧ Built s t (frame2 s.params id instr params) resp.toNat) ∧
    (∀ l h : Byte, resp = u16le l h → answer (0x51 :: id :: instr :: l :: h :: params) s = exec i s) ∧
    ∀ rest : List Byte, rest.length < 4 → answer (0x51 :: rest) s = .next (replied s [0x06])

/-- R156: `F1.CHECK s` answers one status byte and touches nothing: `0x01` alone below 6 bytes, else each
defect in its own bit and every other bit 0. Bit 3 is clear of every frame `frame1` builds. -/
def Obligations.F1CheckReportsEachDefect : Prop :=
  ∀ (s : State) (bytes : List Byte), s.params.Wf →
    ∃ st : Byte, exec (.f1Check bytes) s = .next (replied s [0x00, st]) ∧
      answer (0x52 :: bytes) s = exec (.f1Check bytes) s ∧
      (∀ body, bytes = frame1 s.params body → st.getLsbD 3 = false) ∧
      (bytes.length < 6 → st = 0x01) ∧
      (6 ≤ bytes.length →
        (st.getLsbD 1 = true ↔ bytes[0]? ≠ some 0xFF ∨ bytes[1]? ≠ some 0xFF) ∧
        (st.getLsbD 3 = true ↔ bytes.getLast? ≠ some (csum1 ((bytes.dropLast).drop s.params.v1SumStart))) ∧
        (st.getLsbD 4 = true ↔ (byteAt bytes 3).toNat ≠ bytes.length - 4) ∧
        st.getLsbD 0 = false ∧ st.getLsbD 2 = false ∧ st.getLsbD 5 = false ∧ st.getLsbD 6 = false ∧
        st.getLsbD 7 = false)

/-- R157: `F2.CHECK s` answers one status byte and touches nothing: `0x01` alone below the shortest status
frame, else each defect in its own bit and every other bit 0. Bits 1 to 4 are clear of every status frame
`frame2` builds inside its domain. -/
def Obligations.F2CheckReportsEachDefect : Prop :=
  ∀ (s : State) (bytes : List Byte), s.params.Wf →
    ∃ st : Byte, exec (.f2Check bytes) s = .next (replied s [0x00, st]) ∧
      answer (0x53 :: bytes) s = exec (.f2Check bytes) s ∧
      (∀ id params, bytes = frame2 s.params id 0x55 params → params.length + 3 ≤ 65535 →
        st.getLsbD 1 = false ∧ st.getLsbD 2 = false ∧ st.getLsbD 3 = false ∧ st.getLsbD 4 = false) ∧
      (bytes.length < s.params.v2DataOffset + 2 → st = 0x01) ∧
      (s.params.v2DataOffset + 2 ≤ bytes.length →
        (st.getLsbD 1 = true ↔ bytes.take 4 ≠ [0xFF, 0xFF, 0xFD, 0x00]) ∧
        (st.getLsbD 2 = true ↔ bytes[7]? ≠ some 0x55) ∧
        (st.getLsbD 3 = true ↔
          bytes.drop (bytes.length - 2) ≠ le2 (crc16 s.params (bytes.take (bytes.length - 2)))) ∧
        (st.getLsbD 4 = true ↔ (byteAt bytes 5).toNat + 256 * (byteAt bytes 6).toNat ≠ bytes.length - 7) ∧
        (st.getLsbD 7 = (byteAt bytes s.params.v2ErrOffset).getLsbD 7) ∧
        st.getLsbD 0 = false ∧ st.getLsbD 5 = false ∧ st.getLsbD 6 = false)

/-! ### Packet framer, registers -/

/-- R172: `REG.RD d`: a bad descriptor is refused; a pending envelope keeps its place; otherwise the request
of the active version is built, addressed to `MOTOR_ID`, with the size of the answer it expects. -/
def Obligations.RegRdBuildsTheReadRequest : Prop :=
  ∀ (s : State) (d : Descriptor), s.params.Wf →
    (d.length = 0 → exec (.regRd d) s = .next (replied s [0x05])) ∧
    (s.pver = .v1 → d.addressHigh ≠ 0 → exec (.regRd d) s = .next (replied s [0x05])) ∧
    (d.length ≠ 0 → s.pver = .v2 ∨ d.addressHigh = 0 → s.envState = .pending →
      exec (.regRd d) s = .next (replied s [0x02])) ∧
    (d.length ≠ 0 → s.pver = .v2 → s.envState ≠ .pending → ∃ t, exec (.regRd d) s = .next t ∧
      Built s t (frame2 s.params s.motorId 0x04 [d.addressLow, d.addressHigh, d.length, 0x00])
        (s.params.v2DataOffset + d.length.toNat + 2)) ∧
    (d.length ≠ 0 → s.pver = .v1 → d.addressHigh = 0 → s.envState ≠ .pending → ∃ t, exec (.regRd d) s = .next t ∧
      Built s t (frame1 s.params [s.motorId, 0x04, s.params.v1InstrRead, d.addressLow, d.length])
        (6 + d.length.toNat)) ∧
    answer [0x60, d.addressLow, d.addressHigh, d.length] s = exec (.regRd d) s ∧
    ∀ rest : List Byte, rest.length ≠ 3 → answer (0x60 :: rest) s = .next (replied s [0x06])

/-- R173: `REG.WR d, ack, data`, with as many data bytes as `d.length` says: the errors in their order, and
the write request of the active version otherwise. `size` is the request's size. A message with another number
of data bytes is malformed. -/
def Obligations.RegWrBuildsTheWriteRequest : Prop :=
  ∀ (s : State) (d : Descriptor) (ack : Byte) (data : List Byte), s.params.Wf → data.length = d.length.toNat →
    let i := Instr.regWr d ack data
    let bad := d.length = 0 ∨ 1 < ack.toNat ∨ (s.pver = .v1 ∧ (d.addressHigh ≠ 0 ∨ 252 < d.length.toNat))
    let size := match s.pver with | .v1 => 7 + d.length.toNat | .v2 => 12 + d.length.toNat
    (bad → exec i s = .next (replied s [0x05])) ∧
    (¬ bad → s.params.bufMax < size → exec i s = .next (replied s [0x04])) ∧
    (¬ bad → size ≤ s.params.bufMax → s.envState = .pending → exec i s = .next (replied s [0x02])) ∧
    (¬ bad → size ≤ s.params.bufMax → s.envState ≠ .pending → s.pver = .v2 → ∃ t, exec i s = .next t ∧
      Built s t (frame2 s.params s.motorId 0x03 ([d.addressLow, d.addressHigh] ++ data))
        (if ack = 1 then s.params.v2DataOffset + 2 else 0)) ∧
    (¬ bad → size ≤ s.params.bufMax → s.envState ≠ .pending → s.pver = .v1 → ∃ t, exec i s = .next t ∧
      Built s t (frame1 s.params
          ([s.motorId, BitVec.ofNat 8 (d.length.toNat + 3), s.params.v1InstrWrite, d.addressLow] ++ data))
        (if ack = 1 then 6 else 0)) ∧
    answer (0x61 :: d.addressLow :: d.addressHigh :: d.length :: ack :: data) s = exec i s ∧
    (∀ rest : List Byte, rest.length < 4 → answer (0x61 :: rest) s = .next (replied s [0x06])) ∧
    ∀ other : List Byte, other.length ≠ d.length.toNat →
      answer (0x61 :: d.addressLow :: d.addressHigh :: d.length :: ack :: other) s = .next (replied s [0x06])

/-- The model's choice for a term of `Instr` that no message encodes (log 15): a write with another number of
data bytes than its descriptor says answers `IllegalCommand`, as its malformed message does, whatever its other
operands are. -/
def Obligations.RegWrOfWrongLengthIsIllegal : Prop :=
  ∀ (s : State) (d : Descriptor) (ack : Byte) (data : List Byte), data.length ≠ d.length.toNat →
    exec (.regWr d ack data) s = .next (replied s [0x06])

/-- R174: `REG.SETID newid, ack`: the errors in their order, `MOTOR_ID` kept; otherwise the write of the id
register is built under the OLD identifier and `MOTOR_ID` becomes `newid`, and nothing else changes. -/
def Obligations.RegSetidRenamesWhenTheFrameIsBuilt : Prop :=
  ∀ (s : State) (newid ack : Byte), s.params.Wf →
    let i := Instr.regSetid newid ack
    let d := s.params.regmap[0]
    let data := newid :: List.replicate (d.length.toNat - 1) 0x00
    let bad := 252 < newid.toNat ∨ 1 < ack.toNat ∨ (s.pver = .v1 ∧ (d.addressHigh ≠ 0 ∨ 252 < d.length.toNat))
    let size := match s.pver with | .v1 => 7 + d.length.toNat | .v2 => 12 + d.length.toNat
    (bad → exec i s = .next (replied s [0x05])) ∧
    (¬ bad → s.params.bufMax < size → exec i s = .next (replied s [0x04])) ∧
    (¬ bad → size ≤ s.params.bufMax → s.envState = .pending → exec i s = .next (replied s [0x02])) ∧
    (¬ bad → size ≤ s.params.bufMax → s.envState ≠ .pending → ∃ t u, exec i s = .next t ∧ t = { u with motorId := newid } ∧
      (s.pver = .v2 → Built s u (frame2 s.params s.motorId 0x03 ([d.addressLow, d.addressHigh] ++ data))
        (if ack = 1 then s.params.v2DataOffset + 2 else 0)) ∧
      (s.pver = .v1 → Built s u (frame1 s.params
          ([s.motorId, BitVec.ofNat 8 (d.length.toNat + 3), s.params.v1InstrWrite, d.addressLow] ++ data))
        (if ack = 1 then 6 else 0))) ∧
    answer [0x62, newid, ack] s = exec i s ∧
    ∀ rest : List Byte, rest.length ≠ 2 → answer (0x62 :: rest) s = .next (replied s [0x06])

/-- R175: `REG.XTR d, s`: a bad descriptor is refused; a frame with a defect, or of a size other than the
read expects, is answered with `BadResponse` and the status byte; otherwise the data bytes are answered. The
state is never changed. -/
def Obligations.RegXtrExtractsOrReports : Prop :=
  ∀ (s : State) (d : Descriptor) (bytes : List Byte),
    let i := Instr.regXtr d bytes
    let bad := d.length = 0 ∨ (s.pver = .v1 ∧ d.addressHigh ≠ 0)
    let found := match s.pver with | .v1 => check1 s.params bytes | .v2 => check2 s.params bytes
    let expected := match s.pver with
      | .v1 => 6 + d.length.toNat
      | .v2 => s.params.v2DataOffset + d.length.toNat + 2
    let off := match s.pver with | .v1 => 5 | .v2 => s.params.v2DataOffset
    let st := if found &&& 0x01 = 0 ∧ bytes.length ≠ expected then found ||| 0x10 else found
    (bad → exec i s = .next (replied s [0x05])) ∧
    (¬ bad → st ≠ 0 → exec i s = .next (replied s [0x07, st])) ∧
    (¬ bad → st = 0 → exec i s = .next (replied s (0x00 :: (bytes.drop off).take d.length.toNat)) ∧
      ((bytes.drop off).take d.length.toNat).length = d.length.toNat) ∧
    answer (0x63 :: d.addressLow :: d.addressHigh :: d.length :: bytes) s = exec i s ∧
    ∀ rest : List Byte, rest.length < 3 → answer (0x63 :: rest) s = .next (replied s [0x06])

/-- A status frame as a motor would send it is accepted and gives its data back: under v2 with the error
byte's alert bit clear (at the decided offsets 8 and 9), under v1 with a length byte that fits. -/
def Obligations.StatusFrameDataIsExtracted : Prop :=
  ∀ (s : State) (d : Descriptor) (id err : Byte) (data : List Byte), s.params.Wf →
    d.length ≠ 0 → data.length = d.length.toNat →
    (s.pver = .v2 → s.params.v2ErrOffset = 8 → s.params.v2DataOffset = 9 → err.getLsbD 7 = false →
      exec (.regXtr d (frame2 s.params id 0x55 (err :: data))) s = .next (replied s (0x00 :: data))) ∧
    (s.pver = .v1 → d.addressHigh = 0 → data.length ≤ 253 →
      exec (.regXtr d (frame1 s.params ([id, BitVec.ofNat 8 (data.length + 2), err] ++ data))) s
        = .next (replied s (0x00 :: data)))

/-- R176: no request operation answers `InvalidFrameSize`, and every response size one of them sets is 0, or
at least 11 under v2, or at least 6 under v1. -/
def Obligations.RequestsAreNeverTooShort : Prop :=
  ∀ (i : Instr) (s t : State), s.params.Wf → (requestDescriptor s.params i).isSome → exec i s = .next t →
    t.outbox ≠ s.outbox ++ [[0x01]] ∧
    (s.envState ≠ .pending → t.envState = .pending →
      t.respSize = 0 ∨ (s.pver = .v2 ∧ 11 ≤ t.respSize.toNat) ∨ (s.pver = .v1 ∧ 6 ≤ t.respSize.toNat))

/-- R177: the bytes of every frame a request operation builds: header, identifier at the start of the
operation, length field, instruction, address and CRC under v2; header, length and checksum under v1, and there too the
identifier and the address byte, at the offsets 30_encoding.md R77 gives them. -/
def Obligations.RequestFramesRoundTrip : Prop :=
  ∀ (i : Instr) (s t : State) (d : Descriptor), s.params.Wf → requestDescriptor s.params i = some d →
    s.envState ≠ .pending → exec i s = .next t → t.envState = .pending →
    ∃ f : List Byte, f.length = t.pktSize.toNat ∧ (∀ a, a < f.length → memGet t.buf a = f[a]?) ∧
      (s.pver = .v2 →
        crc16 s.params (slice f 0 (f.length - 2)) = u16le (byteAt f (f.length - 2)) (byteAt f (f.length - 1)) ∧
        slice f 0 4 = [0xFF, 0xFF, 0xFD, 0x00] ∧ byteAt f 4 = s.motorId ∧
        (u16le (byteAt f 5) (byteAt f 6)).toNat = f.length - 7 ∧
        (byteAt f 7 = 0x04 ∨ byteAt f 7 = 0x03) ∧ byteAt f 8 = d.addressLow ∧ byteAt f 9 = d.addressHigh) ∧
      (s.pver = .v1 →
        slice f 0 2 = [0xFF, 0xFF] ∧
        byteAt f (f.length - 1) = csum1 (slice f s.params.v1SumStart (f.length - 1)) ∧
        (byteAt f 3).toNat = f.length - 4 ∧ byteAt f 2 = s.motorId ∧ byteAt f 5 = d.addressLow)

/-! ### The whole block -/

/-- R10, R71, R190: every operation that answers sends exactly one result message: `[0x00] ++ p`, or a code
from 1 to 6, or `[0x07, st]`; and when it is not Ok, nothing else of the state has changed. -/
def Obligations.EveryOperationAnswersOnce : Prop :=
  ∀ (i : Instr) (s t : State), exec i s = .next t →
    ∃ m : List Byte, t.outbox = s.outbox ++ [m] ∧
      ((∃ p, m = 0x00 :: p) ∨
        (t = replied s m ∧ ((∃ c : Byte, 1 ≤ c.toNat ∧ c.toNat ≤ 6 ∧ m = [c]) ∨ ∃ st : Byte, m = [0x07, st])))

/-- Who writes what (10_state.md R20): `SUM_ACC` only `SUM.CLR` and `SUM.BYTE`; `CRC_ACC` only `CRC.CLR` and
`CRC.BYTE`; `PVER` only `PVER.SET`; `MOTOR_ID` only `REG.SETID`; the parameters, with `REGMAP`, `CRC_TABLE` and
`CONV_*`, nothing; the envelope only the seven builders and `ENV.CONSUME`. -/
def Obligations.OnlyTheListedOperationsWrite : Prop :=
  ∀ (i : Instr) (s t : State), exec i s = .next t →
    (t.sumAcc ≠ s.sumAcc → i = .sumClr ∨ ∃ b, i = .sumByte b) ∧
    (t.crcAcc ≠ s.crcAcc → i = .crcClr ∨ ∃ b, i = .crcByte b) ∧
    (t.pver ≠ s.pver → ∃ v, i = .pverSet v) ∧
    (t.motorId ≠ s.motorId → ∃ n a, i = .regSetid n a) ∧
    t.params = s.params ∧ t.inbox = s.inbox ∧ t.resets = s.resets ∧
    (t.envState ≠ s.envState ∨ t.pktSize ≠ s.pktSize ∨ t.respSize ≠ s.respSize ∨ t.buf ≠ s.buf →
      i = .envConsume ∨ (∃ b, i = .envNewa b) ∨ (∃ r b, i = .envNewb r b) ∨ (∃ r b, i = .f1Frame r b) ∨
      (∃ a c r b, i = .f2Frame a c r b) ∨ (∃ d, i = .regRd d) ∨ (∃ d a b, i = .regWr d a b) ∨ ∃ n a, i = .regSetid n a)

/-- R55, first half: the reads and the one-shot computations change no state, and a second one at once answers
the same payload. -/
def Obligations.ReadsChangeNothing : Prop :=
  ∀ (i : Instr) (s t : State),
    i = .sumGet ∨ i = .crcGet ∨ i = .pverGet ∨ i = .idGet ∨ (∃ k, i = .mapRd k) ∨ i = .envStat ∨ i = .envRead ∨
      (∃ b, i = .csum1 b) ∨ (∃ b, i = .crc16 b) ∨ (∃ b, i = .f1Check b) ∨ (∃ b, i = .f2Check b) ∨
      (∃ d b, i = .regXtr d b) →
    exec i s = .next t → ∃ m, t = replied s m ∧ exec i t = .next (replied t m)

/-- R38: the invariant is kept by every step; the parameters never change; and at the moment an envelope
becomes Pending its size is at least the minimum of the version it was checked against. -/
def Obligations.StepKeepsTheInvariant : Prop :=
  (∀ s t : State, BlockInv s → step s = .next t → BlockInv t ∧ t.params = s.params) ∧
  ∀ (i : Instr) (s t : State), BlockInv s → exec i s = .next t → s.envState ≠ .pending → t.envState = .pending →
    minpkt s.params (checkedVersion i s.pver) ≤ t.pktSize.toNat

/-- The state after reset has the invariant, whatever the open parameters are. -/
def Obligations.ResetHasTheInvariant : Prop := BlockInv State.reset

/-- From a state with the invariant, with inputs that can be delivered, no run ever stops: every step is
answered, for any number of steps, and the invariant holds at its end. -/
def Obligations.NoRunEverStops : Prop :=
  ∀ (n : Nat) (s : State), BlockInv s → InboxDeliverable s → ∃ t, run n s = .next t ∧ BlockInv t
end

