-- ==== Sys2Proof/Laws/Bytes.lean ====
section
/-! SUPPORT. Byte order, sums, the CRC recurrence and frame sizes: one lemma per function. -/
namespace Sys2Proof.Machine

theorem lo8_toNat (v : U16) : (lo8 v).toNat = v.toNat % 256 := by simp [lo8]

theorem hi8_toNat (v : U16) : (hi8 v).toNat = v.toNat / 256 := by
  have := v.isLt
  simp [hi8, Nat.shiftRight_eq_div_pow]
  omega

theorem u16le_toNat (lo hi : Byte) : (u16le lo hi).toNat = lo.toNat + 256 * hi.toNat := by
  have h1 := lo.isLt
  have h2 := hi.isLt
  have h3 := Nat.shiftLeft_add_eq_or_of_lt (i := 8) (b := lo.toNat) (by omega) hi.toNat
  simp only [u16le, BitVec.toNat_or, BitVec.toNat_setWidth, BitVec.toNat_shiftLeft, Nat.reducePow]
  rw [Nat.mod_eq_of_lt (by omega : lo.toNat < 65536), Nat.mod_eq_of_lt (by omega : hi.toNat < 65536),
    Nat.shiftLeft_eq, Nat.mod_eq_of_lt (by omega), Nat.lor_comm, ← Nat.shiftLeft_eq, ← h3, Nat.shiftLeft_eq]
  omega

/-- A u16 taken apart and put together again. -/
theorem u16le_lo8_hi8 (v : U16) : u16le (lo8 v) (hi8 v) = v := by
  apply BitVec.eq_of_toNat_eq
  rw [u16le_toNat, lo8_toNat, hi8_toNat]
  omega

theorem lo8_u16le (lo hi : Byte) : lo8 (u16le lo hi) = lo := by
  apply BitVec.eq_of_toNat_eq
  have := lo.isLt
  rw [lo8_toNat, u16le_toNat]
  omega

theorem hi8_u16le (lo hi : Byte) : hi8 (u16le lo hi) = hi := by
  apply BitVec.eq_of_toNat_eq
  have := lo.isLt
  rw [hi8_toNat, u16le_toNat]
  omega

@[simp] theorem le2_length (v : U16) : (le2 v).length = 2 := rfl

theorem slice_length (s : List Byte) (a b : Nat) : (slice s a b).length = min b s.length - a := by
  simp [slice]

theorem sumBytes_append (acc : Byte) (s t : List Byte) :
    sumBytes acc (s ++ t) = sumBytes (sumBytes acc s) t := by
  induction s generalizing acc with
  | nil => rfl
  | cons b bs ih => exact ih _

theorem crcBytes_append (p : Params) (acc : U16) (s t : List Byte) :
    crcBytes p acc (s ++ t) = crcBytes p (crcBytes p acc s) t := by
  induction s generalizing acc with
  | nil => rfl
  | cons b bs ih => exact ih _

@[simp] theorem frame1_length (p : Params) (body : List Byte) : (frame1 p body).length = body.length + 3 := by
  simp [frame1, frame1Head, v1Header]

@[simp] theorem frame2Head_length (id instr : Byte) (ps : List Byte) :
    (frame2Head id instr ps).length = ps.length + 8 := by
  simp [frame2Head, v2Header]; omega

@[simp] theorem frame2_length (p : Params) (id instr : Byte) (ps : List Byte) :
    (frame2 p id instr ps).length = ps.length + 10 := by
  simp [frame2]

end Sys2Proof.Machine
end

