-- ==== Sys2Proof/Laws/State.lean ====
section
/-! SUPPORT. What each update of the state leaves in each field, so that no proof unfolds a record update;
and the two named ends of an operation. -/
namespace Sys2Proof.Machine

@[simp] theorem State.setSumAcc_params (s : State) (v : Byte) : (s.setSumAcc v).params = s.params := rfl
@[simp] theorem State.setSumAcc_sumAcc (s : State) (v : Byte) : (s.setSumAcc v).sumAcc = v := rfl
@[simp] theorem State.setSumAcc_crcAcc (s : State) (v : Byte) : (s.setSumAcc v).crcAcc = s.crcAcc := rfl
@[simp] theorem State.setSumAcc_pver (s : State) (v : Byte) : (s.setSumAcc v).pver = s.pver := rfl
@[simp] theorem State.setSumAcc_motorId (s : State) (v : Byte) : (s.setSumAcc v).motorId = s.motorId := rfl
@[simp] theorem State.setSumAcc_envState (s : State) (v : Byte) : (s.setSumAcc v).envState = s.envState := rfl
@[simp] theorem State.setSumAcc_pktSize (s : State) (v : Byte) : (s.setSumAcc v).pktSize = s.pktSize := rfl
@[simp] theorem State.setSumAcc_respSize (s : State) (v : Byte) : (s.setSumAcc v).respSize = s.respSize := rfl
@[simp] theorem State.setSumAcc_buf (s : State) (v : Byte) : (s.setSumAcc v).buf = s.buf := rfl
@[simp] theorem State.setSumAcc_resets (s : State) (v : Byte) : (s.setSumAcc v).resets = s.resets := rfl
@[simp] theorem State.setSumAcc_inbox (s : State) (v : Byte) : (s.setSumAcc v).inbox = s.inbox := rfl
@[simp] theorem State.setSumAcc_outbox (s : State) (v : Byte) : (s.setSumAcc v).outbox = s.outbox := rfl

@[simp] theorem State.setCrcAcc_params (s : State) (v : U16) : (s.setCrcAcc v).params = s.params := rfl
@[simp] theorem State.setCrcAcc_sumAcc (s : State) (v : U16) : (s.setCrcAcc v).sumAcc = s.sumAcc := rfl
@[simp] theorem State.setCrcAcc_crcAcc (s : State) (v : U16) : (s.setCrcAcc v).crcAcc = v := rfl
@[simp] theorem State.setCrcAcc_pver (s : State) (v : U16) : (s.setCrcAcc v).pver = s.pver := rfl
@[simp] theorem State.setCrcAcc_motorId (s : State) (v : U16) : (s.setCrcAcc v).motorId = s.motorId := rfl
@[simp] theorem State.setCrcAcc_envState (s : State) (v : U16) : (s.setCrcAcc v).envState = s.envState := rfl
@[simp] theorem State.setCrcAcc_pktSize (s : State) (v : U16) : (s.setCrcAcc v).pktSize = s.pktSize := rfl
@[simp] theorem State.setCrcAcc_respSize (s : State) (v : U16) : (s.setCrcAcc v).respSize = s.respSize := rfl
@[simp] theorem State.setCrcAcc_buf (s : State) (v : U16) : (s.setCrcAcc v).buf = s.buf := rfl
@[simp] theorem State.setCrcAcc_resets (s : State) (v : U16) : (s.setCrcAcc v).resets = s.resets := rfl
@[simp] theorem State.setCrcAcc_inbox (s : State) (v : U16) : (s.setCrcAcc v).inbox = s.inbox := rfl
@[simp] theorem State.setCrcAcc_outbox (s : State) (v : U16) : (s.setCrcAcc v).outbox = s.outbox := rfl

@[simp] theorem State.setPver_params (s : State) (v : Version) : (s.setPver v).params = s.params := rfl
@[simp] theorem State.setPver_sumAcc (s : State) (v : Version) : (s.setPver v).sumAcc = s.sumAcc := rfl
@[simp] theorem State.setPver_crcAcc (s : State) (v : Version) : (s.setPver v).crcAcc = s.crcAcc := rfl
@[simp] theorem State.setPver_pver (s : State) (v : Version) : (s.setPver v).pver = v := rfl
@[simp] theorem State.setPver_motorId (s : State) (v : Version) : (s.setPver v).motorId = s.motorId := rfl
@[simp] theorem State.setPver_envState (s : State) (v : Version) : (s.setPver v).envState = s.envState := rfl
@[simp] theorem State.setPver_pktSize (s : State) (v : Version) : (s.setPver v).pktSize = s.pktSize := rfl
@[simp] theorem State.setPver_respSize (s : State) (v : Version) : (s.setPver v).respSize = s.respSize := rfl
@[simp] theorem State.setPver_buf (s : State) (v : Version) : (s.setPver v).buf = s.buf := rfl
@[simp] theorem State.setPver_resets (s : State) (v : Version) : (s.setPver v).resets = s.resets := rfl
@[simp] theorem State.setPver_inbox (s : State) (v : Version) : (s.setPver v).inbox = s.inbox := rfl
@[simp] theorem State.setPver_outbox (s : State) (v : Version) : (s.setPver v).outbox = s.outbox := rfl

@[simp] theorem State.setMotorId_params (s : State) (v : Byte) : (s.setMotorId v).params = s.params := rfl
@[simp] theorem State.setMotorId_sumAcc (s : State) (v : Byte) : (s.setMotorId v).sumAcc = s.sumAcc := rfl
@[simp] theorem State.setMotorId_crcAcc (s : State) (v : Byte) : (s.setMotorId v).crcAcc = s.crcAcc := rfl
@[simp] theorem State.setMotorId_pver (s : State) (v : Byte) : (s.setMotorId v).pver = s.pver := rfl
@[simp] theorem State.setMotorId_motorId (s : State) (v : Byte) : (s.setMotorId v).motorId = v := rfl
@[simp] theorem State.setMotorId_envState (s : State) (v : Byte) : (s.setMotorId v).envState = s.envState := rfl
@[simp] theorem State.setMotorId_pktSize (s : State) (v : Byte) : (s.setMotorId v).pktSize = s.pktSize := rfl
@[simp] theorem State.setMotorId_respSize (s : State) (v : Byte) : (s.setMotorId v).respSize = s.respSize := rfl
@[simp] theorem State.setMotorId_buf (s : State) (v : Byte) : (s.setMotorId v).buf = s.buf := rfl
@[simp] theorem State.setMotorId_resets (s : State) (v : Byte) : (s.setMotorId v).resets = s.resets := rfl
@[simp] theorem State.setMotorId_inbox (s : State) (v : Byte) : (s.setMotorId v).inbox = s.inbox := rfl
@[simp] theorem State.setMotorId_outbox (s : State) (v : Byte) : (s.setMotorId v).outbox = s.outbox := rfl

@[simp] theorem State.emit_params (s : State) (m : List Byte) : (s.emit m).params = s.params := rfl
@[simp] theorem State.emit_sumAcc (s : State) (m : List Byte) : (s.emit m).sumAcc = s.sumAcc := rfl
@[simp] theorem State.emit_crcAcc (s : State) (m : List Byte) : (s.emit m).crcAcc = s.crcAcc := rfl
@[simp] theorem State.emit_pver (s : State) (m : List Byte) : (s.emit m).pver = s.pver := rfl
@[simp] theorem State.emit_motorId (s : State) (m : List Byte) : (s.emit m).motorId = s.motorId := rfl
@[simp] theorem State.emit_envState (s : State) (m : List Byte) : (s.emit m).envState = s.envState := rfl
@[simp] theorem State.emit_pktSize (s : State) (m : List Byte) : (s.emit m).pktSize = s.pktSize := rfl
@[simp] theorem State.emit_respSize (s : State) (m : List Byte) : (s.emit m).respSize = s.respSize := rfl
@[simp] theorem State.emit_buf (s : State) (m : List Byte) : (s.emit m).buf = s.buf := rfl
@[simp] theorem State.emit_resets (s : State) (m : List Byte) : (s.emit m).resets = s.resets := rfl
@[simp] theorem State.emit_inbox (s : State) (m : List Byte) : (s.emit m).inbox = s.inbox := rfl
@[simp] theorem State.emit_outbox (s : State) (m : List Byte) : (s.emit m).outbox = s.outbox ++ [m] := rfl

@[simp] theorem State.setInbox_params (s : State) (l : List Input) : (s.setInbox l).params = s.params := rfl
@[simp] theorem State.setInbox_sumAcc (s : State) (l : List Input) : (s.setInbox l).sumAcc = s.sumAcc := rfl
@[simp] theorem State.setInbox_crcAcc (s : State) (l : List Input) : (s.setInbox l).crcAcc = s.crcAcc := rfl
@[simp] theorem State.setInbox_pver (s : State) (l : List Input) : (s.setInbox l).pver = s.pver := rfl
@[simp] theorem State.setInbox_motorId (s : State) (l : List Input) : (s.setInbox l).motorId = s.motorId := rfl
@[simp] theorem State.setInbox_envState (s : State) (l : List Input) : (s.setInbox l).envState = s.envState := rfl
@[simp] theorem State.setInbox_pktSize (s : State) (l : List Input) : (s.setInbox l).pktSize = s.pktSize := rfl
@[simp] theorem State.setInbox_respSize (s : State) (l : List Input) : (s.setInbox l).respSize = s.respSize := rfl
@[simp] theorem State.setInbox_buf (s : State) (l : List Input) : (s.setInbox l).buf = s.buf := rfl
@[simp] theorem State.setInbox_resets (s : State) (l : List Input) : (s.setInbox l).resets = s.resets := rfl
@[simp] theorem State.setInbox_inbox (s : State) (l : List Input) : (s.setInbox l).inbox = l := rfl
@[simp] theorem State.setInbox_outbox (s : State) (l : List Input) : (s.setInbox l).outbox = s.outbox := rfl

@[simp] theorem State.openEnvelope_params (s : State) (f : List Byte) (r : U16) : (s.openEnvelope f r).params = s.params := rfl
@[simp] theorem State.openEnvelope_sumAcc (s : State) (f : List Byte) (r : U16) : (s.openEnvelope f r).sumAcc = s.sumAcc := rfl
@[simp] theorem State.openEnvelope_crcAcc (s : State) (f : List Byte) (r : U16) : (s.openEnvelope f r).crcAcc = s.crcAcc := rfl
@[simp] theorem State.openEnvelope_pver (s : State) (f : List Byte) (r : U16) : (s.openEnvelope f r).pver = s.pver := rfl
@[simp] theorem State.openEnvelope_motorId (s : State) (f : List Byte) (r : U16) : (s.openEnvelope f r).motorId = s.motorId := rfl
@[simp] theorem State.openEnvelope_envState (s : State) (f : List Byte) (r : U16) : (s.openEnvelope f r).envState = .pending := rfl
@[simp] theorem State.openEnvelope_pktSize (s : State) (f : List Byte) (r : U16) : (s.openEnvelope f r).pktSize = BitVec.ofNat 16 f.length := rfl
@[simp] theorem State.openEnvelope_respSize (s : State) (f : List Byte) (r : U16) : (s.openEnvelope f r).respSize = r := rfl
@[simp] theorem State.openEnvelope_buf (s : State) (f : List Byte) (r : U16) : (s.openEnvelope f r).buf = memWrite s.buf 0 f := rfl
@[simp] theorem State.openEnvelope_resets (s : State) (f : List Byte) (r : U16) : (s.openEnvelope f r).resets = s.resets := rfl
@[simp] theorem State.openEnvelope_inbox (s : State) (f : List Byte) (r : U16) : (s.openEnvelope f r).inbox = s.inbox := rfl
@[simp] theorem State.openEnvelope_outbox (s : State) (f : List Byte) (r : U16) : (s.openEnvelope f r).outbox = s.outbox := rfl

@[simp] theorem State.closeEnvelope_params (s : State) : (s.closeEnvelope).params = s.params := rfl
@[simp] theorem State.closeEnvelope_sumAcc (s : State) : (s.closeEnvelope).sumAcc = s.sumAcc := rfl
@[simp] theorem State.closeEnvelope_crcAcc (s : State) : (s.closeEnvelope).crcAcc = s.crcAcc := rfl
@[simp] theorem State.closeEnvelope_pver (s : State) : (s.closeEnvelope).pver = s.pver := rfl
@[simp] theorem State.closeEnvelope_motorId (s : State) : (s.closeEnvelope).motorId = s.motorId := rfl
@[simp] theorem State.closeEnvelope_envState (s : State) : (s.closeEnvelope).envState = .consumed := rfl
@[simp] theorem State.closeEnvelope_pktSize (s : State) : (s.closeEnvelope).pktSize = 0 := rfl
@[simp] theorem State.closeEnvelope_respSize (s : State) : (s.closeEnvelope).respSize = 0 := rfl
@[simp] theorem State.closeEnvelope_buf (s : State) : (s.closeEnvelope).buf = [] := rfl
@[simp] theorem State.closeEnvelope_resets (s : State) : (s.closeEnvelope).resets = s.resets := rfl
@[simp] theorem State.closeEnvelope_inbox (s : State) : (s.closeEnvelope).inbox = s.inbox := rfl
@[simp] theorem State.closeEnvelope_outbox (s : State) : (s.closeEnvelope).outbox = s.outbox := rfl

@[simp] theorem State.resetEvent_params (s : State) : (s.resetEvent).params = s.params := rfl
@[simp] theorem State.resetEvent_sumAcc (s : State) : (s.resetEvent).sumAcc = Config.resetSumAcc s.resets := rfl
@[simp] theorem State.resetEvent_crcAcc (s : State) : (s.resetEvent).crcAcc = Config.resetCrcAcc s.resets := rfl
@[simp] theorem State.resetEvent_pver (s : State) : (s.resetEvent).pver = s.params.pverReset := rfl
@[simp] theorem State.resetEvent_motorId (s : State) : (s.resetEvent).motorId = s.params.idReset := rfl
@[simp] theorem State.resetEvent_envState (s : State) : (s.resetEvent).envState = .empty := rfl
@[simp] theorem State.resetEvent_pktSize (s : State) : (s.resetEvent).pktSize = 0 := rfl
@[simp] theorem State.resetEvent_respSize (s : State) : (s.resetEvent).respSize = 0 := rfl
@[simp] theorem State.resetEvent_buf (s : State) : (s.resetEvent).buf = [] := rfl
@[simp] theorem State.resetEvent_resets (s : State) : (s.resetEvent).resets = s.resets + 1 := rfl
@[simp] theorem State.resetEvent_inbox (s : State) : (s.resetEvent).inbox = s.inbox := rfl
@[simp] theorem State.resetEvent_outbox (s : State) : (s.resetEvent).outbox = s.outbox := rfl

@[simp] theorem replied_params (s : State) (m : List Byte) : (replied s m).params = s.params := rfl
@[simp] theorem replied_sumAcc (s : State) (m : List Byte) : (replied s m).sumAcc = s.sumAcc := rfl
@[simp] theorem replied_crcAcc (s : State) (m : List Byte) : (replied s m).crcAcc = s.crcAcc := rfl
@[simp] theorem replied_pver (s : State) (m : List Byte) : (replied s m).pver = s.pver := rfl
@[simp] theorem replied_motorId (s : State) (m : List Byte) : (replied s m).motorId = s.motorId := rfl
@[simp] theorem replied_envState (s : State) (m : List Byte) : (replied s m).envState = s.envState := rfl
@[simp] theorem replied_pktSize (s : State) (m : List Byte) : (replied s m).pktSize = s.pktSize := rfl
@[simp] theorem replied_respSize (s : State) (m : List Byte) : (replied s m).respSize = s.respSize := rfl
@[simp] theorem replied_buf (s : State) (m : List Byte) : (replied s m).buf = s.buf := rfl
@[simp] theorem replied_resets (s : State) (m : List Byte) : (replied s m).resets = s.resets := rfl
@[simp] theorem replied_inbox (s : State) (m : List Byte) : (replied s m).inbox = s.inbox := rfl
@[simp] theorem replied_outbox (s : State) (m : List Byte) : (replied s m).outbox = s.outbox ++ [m] := rfl

theorem State.emit_eq_replied (s : State) (m : List Byte) : s.emit m = replied s m := rfl

/-- An operation that ends in `Ok(p)` answers `[0x00] ++ p`. -/
theorem finish_eq (p : List Byte) (s : State) : finish p s = .next (replied s (0x00 :: p)) := rfl

/-- An operation that raises answers the error's message and changes nothing else. -/
theorem raise_eq (e : Err) (s : State) : raise e s = .next (replied s (errMessage e)) := rfl

theorem finishOr_ok (s t : State) : finishOr (.ok t) s = .next (replied t [0x00]) := rfl

theorem finishOr_error (e : Err) (s : State) : finishOr (.error e) s = .next (replied s (errMessage e)) := rfl

/-- An operation's end: a changed state with `[0x00]`, or the old state with an error's message. -/
theorem finishOr_cases (r : Except Err State) (s : State) :
    (∃ t, r = .ok t ∧ finishOr r s = .next (replied t [0x00])) ∨
    (∃ e, r = .error e ∧ finishOr r s = .next (replied s (errMessage e))) := by
  cases r with
  | ok t => exact .inl ⟨t, rfl, rfl⟩
  | error e => exact .inr ⟨e, rfl, rfl⟩

end Sys2Proof.Machine
end

