-- ==== Sys2Proof/Laws/Memory.lean ====
section
/-! SUPPORT. The frame buffer: a read after a write to the same offset gives the value written, a write
leaves every other offset alone, and every write keeps the canonical form. -/
namespace Sys2Proof.Machine

@[simp] theorem memGet_nil (a : Nat) : memGet [] a = none := rfl

theorem memGet_memPut_same (m : Memory) (a : Nat) (b : Byte) : memGet (memPut m a b) a = some b := by
  induction m with
  | nil => simp [memPut, memGet]
  | cons c r ih =>
    obtain ⟨a', b'⟩ := c
    simp only [memPut]
    split
    · simp [memGet]
    · split
      · simp [memGet]
      · rename_i h; simp [memGet, h, ih]

theorem memGet_memPut_other (m : Memory) (a c : Nat) (b : Byte) (h : c ≠ a) :
    memGet (memPut m a b) c = memGet m c := by
  induction m with
  | nil => simp [memPut, memGet, h]
  | cons d r ih =>
    obtain ⟨a', b'⟩ := d
    simp only [memPut]
    split
    · simp [memGet, h]
    · split
      · rename_i h'; subst h'; simp [memGet, h]
      · simp [memGet, ih]

/-- What every offset reads after a write of a byte sequence. -/
theorem memGet_memWrite (bs : List Byte) (m : Memory) (a c : Nat) :
    memGet (memWrite m a bs) c = if a ≤ c ∧ c < a + bs.length then bs[c - a]? else memGet m c := by
  induction bs generalizing m a with
  | nil => simp [memWrite]
  | cons b bs ih =>
    simp only [memWrite, ih, List.length_cons]
    by_cases h1 : c = a
    · subst h1
      simp [memGet_memPut_same]
    · rw [memGet_memPut_other _ _ _ _ h1]
      by_cases h2 : a + 1 ≤ c ∧ c < a + 1 + bs.length
      · have h3 : a ≤ c ∧ c < a + (bs.length + 1) := by omega
        have h4 : c - a = (c - (a + 1)) + 1 := by omega
        rw [if_pos h2, if_pos h3, h4, List.getElem?_cons_succ]
      · have h3 : ¬ (a ≤ c ∧ c < a + (bs.length + 1)) := by omega
        rw [if_neg h2, if_neg h3]

/-- Reading `n` bytes succeeds exactly when each of them has a value, and gives those values. -/
theorem memBytes_eq_some (m : Memory) (n a : Nat) (bs : List Byte) :
    memBytes m a n = some bs ↔ bs.length = n ∧ ∀ k, k < n → memGet m (a + k) = bs[k]? := by
  induction n generalizing a bs with
  | zero =>
    simp only [memBytes, Option.some.injEq, Nat.not_lt_zero, false_implies, implies_true, and_true]
    exact ⟨fun h => by simp [← h], fun h => (List.length_eq_zero_iff.mp h).symm⟩
  | succ n ih =>
    simp only [memBytes]
    constructor
    · intro h
      split at h
      · rename_i b bs' hb hbs
        obtain ⟨hl, hk⟩ := (ih (a + 1) bs').mp hbs
        cases h
        refine ⟨by simp [hl], fun k hkn => ?_⟩
        cases k with
        | zero => simp [hb]
        | succ k => rw [show a + (k + 1) = a + 1 + k by omega, hk k (by omega), List.getElem?_cons_succ]
      · cases h
    · rintro ⟨hl, hk⟩
      cases bs with
      | nil => simp at hl
      | cons b bs =>
        have h0 := hk 0 (by omega)
        have hr : memBytes m (a + 1) n = some bs := (ih (a + 1) bs).mpr ⟨by simpa using hl, fun k hkn => by
          have := hk (k + 1) (by omega)
          rwa [show a + (k + 1) = a + 1 + k by omega, List.getElem?_cons_succ] at this⟩
        simp only [Nat.add_zero, List.getElem?_cons_zero] at h0
        simp [h0, hr]

/-- Reading back a written byte sequence gives it, whatever the buffer held before. -/
theorem memBytes_memWrite (m : Memory) (a : Nat) (bs : List Byte) :
    memBytes (memWrite m a bs) a bs.length = some bs := by
  refine (memBytes_eq_some _ _ _ _).mpr ⟨rfl, fun k hk => ?_⟩
  rw [memGet_memWrite, if_pos (by omega), Nat.add_sub_cancel_left]

/-- The canonical form of a buffer whose first entry stands at `a'`: the head rule, once. -/
theorem wf_cons (c : Host.Cell) (m : Memory) :
    Memory.wf (c :: m) = true ↔ (∀ d, m.head? = some d → c.1 < d.1) ∧ Memory.wf m = true := by
  cases m with
  | nil => simp [Memory.wf]
  | cons d r => simp [Memory.wf]

theorem memPut_head (m : Memory) (a : Nat) (b : Byte) (d : Host.Cell) (h : (memPut m a b).head? = some d) :
    d.1 = a ∨ (∃ e, m.head? = some e ∧ d.1 = e.1) := by
  cases m with
  | nil => simp [memPut] at h; simp [← h]
  | cons c r =>
    simp only [memPut] at h
    split at h
    · simp at h; simp [← h]
    · split at h
      · simp at h; simp [← h]
      · simp at h; exact .inr ⟨c, by simp, by simp [← h]⟩

/-- Writing one byte keeps the canonical form. -/
theorem wf_memPut (m : Memory) (a : Nat) (b : Byte) (h : Memory.wf m = true) : Memory.wf (memPut m a b) = true := by
  induction m with
  | nil => rfl
  | cons c r ih =>
    obtain ⟨a', b'⟩ := c
    obtain ⟨hh, hr⟩ := (wf_cons _ _).mp h
    simp only [memPut]
    split
    · rename_i hlt
      exact (wf_cons _ _).mpr ⟨fun d hd => by simp at hd; simpa [← hd] using hlt, h⟩
    · split
      · rename_i heq
        subst heq
        exact (wf_cons _ _).mpr ⟨fun d hd => hh d hd, hr⟩
      · rename_i h1 h2
        refine (wf_cons _ _).mpr ⟨fun d hd => ?_, ih hr⟩
        rcases memPut_head _ _ _ _ hd with hda | ⟨e, he, hde⟩
        · simp only [hda]; omega
        · have := hh e he; simp only [hde]; exact this

/-- Writing a byte sequence keeps the canonical form. -/
theorem wf_memWrite (bs : List Byte) (m : Memory) (a : Nat) (h : Memory.wf m = true) :
    Memory.wf (memWrite m a bs) = true := by
  induction bs generalizing m a with
  | nil => exact h
  | cons b bs ih => exact ih _ _ (wf_memPut m a b h)

theorem wf_openEnvelope (s : State) (f : List Byte) (r : U16) (h : Memory.wf s.buf = true) :
    Memory.wf (s.openEnvelope f r).buf = true := wf_memWrite f s.buf 0 h

theorem wf_closeEnvelope (s : State) : Memory.wf s.closeEnvelope.buf = true := rfl

theorem wf_resetEvent (s : State) : Memory.wf s.resetEvent.buf = true := rfl

theorem reset_buf_wf : Memory.wf State.reset.buf = true := rfl

end Sys2Proof.Machine
end

