-- ==== Sys2Proof/Laws/Ops.lean ====
section
/-! SUPPORT. For each shared operation, once, everything it can do; and what every operation can do to the
state. -/
namespace Sys2Proof.Machine

/-- `env_build` succeeds exactly when its three tests pass, and then makes its four writes. -/
theorem envBuild_eq_ok (v : Version) (f : List Byte) (r : U16) (s t : State) :
    envBuild v f r s = .ok t ↔
      minpkt s.params v ≤ f.length ∧ f.length ≤ s.params.bufMax ∧ s.envState ≠ .pending ∧
      t = s.openEnvelope f r := by
  unfold envBuild
  split
  · simp; omega
  · split
    · simp; omega
    · split
      · rename_i h; simp [h]
      · rename_i h1 h2 h3
        constructor
        · intro h; cases h; exact ⟨by omega, by omega, h3, rfl⟩
        · rintro ⟨-, -, -, rfl⟩; rfl

/-- Which error `env_build` raises: the first of its three tests that fails. -/
theorem envBuild_eq_error (v : Version) (f : List Byte) (r : U16) (s : State) (e : Err) :
    envBuild v f r s = .error e ↔
      (f.length < minpkt s.params v ∧ e = .invalidFrameSize) ∨
      (minpkt s.params v ≤ f.length ∧ s.params.bufMax < f.length ∧ e = .bufferCapacity) ∨
      (minpkt s.params v ≤ f.length ∧ f.length ≤ s.params.bufMax ∧ s.envState = .pending ∧ e = .envelopeBusy) := by
  have flip : ∀ x : Err, (x = e) = (e = x) := fun x => propext eq_comm
  unfold envBuild
  split
  · rename_i h
    simp [h, Nat.not_le.mpr h, flip]
  · rename_i h
    split
    · rename_i h2
      simp [h, Nat.not_lt.mp h, h2, Nat.not_le.mpr h2, flip]
    · rename_i h2
      split
      · rename_i h3
        simp [h, Nat.not_lt.mp h, h2, Nat.not_lt.mp h2, h3, flip]
      · rename_i h3
        simp [h, h2, h3]

/-- A request is built exactly when its frame exists and `env_build` takes it. -/
theorem buildRequest_eq_ok (f : Except Err (List Byte)) (resp : Nat) (s t : State) :
    buildRequest f resp s = .ok t ↔
      ∃ frame, f = .ok frame ∧ envBuild s.pver frame (BitVec.ofNat 16 resp) s = .ok t := by
  cases f with
  | error e => simp [buildRequest]
  | ok frame => simp [buildRequest]

/-- `MemRead` answers exactly the bytes of the buffer, inside `BUF_MAX`, when each has a value. -/
theorem memRead_eq_ok (s : State) (a n : Nat) (bs : List Byte) :
    memRead s a n = .ok bs ↔ a + n ≤ s.params.bufMax ∧ memBytes s.buf a n = some bs := by
  unfold memRead
  split
  · rename_i h; simp [Nat.not_le.mpr h]
  · rename_i h
    cases memBytes s.buf a n <;> simp [Nat.not_lt.mp h]

/-- What the writes of `env_build` leave, in the terms of `Built`. -/
theorem built_of_openEnvelope (s : State) (f : List Byte) (r : U16) (h : f.length ≤ 65535) :
    Built s (replied (s.openEnvelope f r) [0x00]) f r.toNat where
  others := rfl
  size := by simp; omega
  response := rfl
  stored a ha := by simp [memGet_memWrite, ha]
  beyond a ha := by simp [memGet_memWrite, Nat.not_lt.mpr ha]

/-- The operations that build an envelope when they succeed, but for `REG.SETID`, which renames too. -/
def builds : Instr → Bool
  | .envNewa _ => true
  | .envNewb _ _ => true
  | .f1Frame _ _ => true
  | .f2Frame _ _ _ _ => true
  | .regRd _ => true
  | .regWr _ _ _ => true
  | _ => false

/-- Everything an operation that ends in a next state can have done, with its result message. -/
inductive Effect (i : Instr) (s : State) : State → Prop where
  /-- A read, a one-shot computation or an error: nothing but the result message. -/
  | answered (p : List Byte) : Effect i s (replied s (0x00 :: p))
  | raised (e : Err) : Effect i s (replied s (errMessage e))
  | sum (v : Byte) (h : i = .sumClr ∨ ∃ b, i = .sumByte b) : Effect i s (replied (s.setSumAcc v) [0x00])
  | crc (v : U16) (h : i = .crcClr ∨ ∃ b, i = .crcByte b) : Effect i s (replied (s.setCrcAcc v) [0x00])
  | version (v : Version) (b : Byte) (h : i = .pverSet b) : Effect i s (replied (s.setPver v) [0x00])
  | consumed (h : i = .envConsume) (hp : s.envState = .pending) : Effect i s (replied s.closeEnvelope [0x00])
  | built (f : List Byte) (r : U16) (h : builds i = true)
      (hb : envBuild (checkedVersion i s.pver) f r s = .ok (s.openEnvelope f r)) :
      Effect i s (replied (s.openEnvelope f r) [0x00])
  | renamed (n ack : Byte) (f : List Byte) (r : U16) (h : i = .regSetid n ack) (hn : n.toNat ≤ 252)
      (hb : envBuild s.pver f r s = .ok (s.openEnvelope f r)) :
      Effect i s (replied ((s.openEnvelope f r).setMotorId n) [0x00])

theorem effect_of_finishOr_envBuild {i : Instr} {s t : State} {f : List Byte} {r : U16} {v : Version}
    (hi : builds i = true) (hv : checkedVersion i s.pver = v) (h : finishOr (envBuild v f r s) s = .next t) : Effect i s t := by
  rcases finishOr_cases (envBuild v f r s) s with ⟨u, hu, he⟩ | ⟨e, -, he⟩
  · obtain ⟨-, -, -, rfl⟩ := (envBuild_eq_ok _ _ _ _ _).mp hu
    rw [he] at h; cases h
    exact .built f r hi (hv ▸ hu)
  · rw [he] at h; cases h
    exact .raised e

theorem effect_of_finishOr_request {i : Instr} {s t : State} {g : Except Err (List Byte)} {n : Nat}
    (hi : builds i = true) (hv : checkedVersion i s.pver = s.pver) (h : finishOr (buildRequest g n s) s = .next t) : Effect i s t := by
  cases g with
  | error e => cases h; exact .raised e
  | ok f => exact effect_of_finishOr_envBuild hi hv h

/-- Every operation that ends in a next state has one of the effects above. -/
theorem effect_of_exec {i : Instr} {s t : State} (h : exec i s = .next t) : Effect i s t := by
  cases i with
  | sumClr => cases h; exact .sum 0 (.inl rfl)
  | sumByte b => cases h; exact .sum _ (.inr ⟨b, rfl⟩)
  | sumGet => cases h; exact .answered _
  | csum1 b => cases h; exact .answered _
  | crcClr => cases h; exact .crc _ (.inl rfl)
  | crcByte b => cases h; exact .crc _ (.inr ⟨b, rfl⟩)
  | crcGet => cases h; exact .answered _
  | crc16 b => cases h; exact .answered _
  | pverSet v =>
    simp only [exec, execPverSet] at h
    split at h
    · cases h; exact .raised .badOperand
    · cases h; exact .version _ v rfl
  | pverGet => cases h; exact .answered _
  | idGet => cases h; exact .answered _
  | mapRd k =>
    simp only [exec, execMapRd] at h
    split at h
    · cases h; exact .raised .badOperand
    · cases h; exact .answered _
  | envNewa b => exact effect_of_finishOr_envBuild rfl rfl h
  | envNewb r b =>
    simp only [exec, execEnvNewb] at h
    split at h
    · cases h; exact .raised .invalidFrameSize
    · split at h
      · cases h; exact .raised .badOperand
      · exact effect_of_finishOr_envBuild rfl rfl h
  | envConsume =>
    simp only [exec, execEnvConsume] at h
    split at h
    · rename_i hp; cases h; exact .consumed rfl hp
    · cases h; exact .raised .noEnvelope
  | envStat => cases h; exact .answered _
  | envRead =>
    simp only [exec, execEnvRead] at h
    split at h
    · split at h
      · cases h; exact .answered _
      · cases h
    · cases h; exact .raised .noEnvelope
  | f1Frame r b => exact effect_of_finishOr_envBuild rfl rfl h
  | f2Frame id c r ps =>
    simp only [exec, execF2Frame] at h
    split at h
    · cases h; exact .raised .invalidFrameSize
    · split at h
      · cases h; exact .raised .badOperand
      · exact effect_of_finishOr_envBuild rfl rfl h
  | f1Check b => cases h; exact .answered _
  | f2Check b => cases h; exact .answered _
  | regRd d =>
    simp only [exec, execRegRd] at h
    split at h
    · exact effect_of_finishOr_request rfl rfl h
    · cases h; exact .raised .badOperand
  | regWr d a b =>
    simp only [exec, execRegWr] at h
    split at h
    · cases h; exact .raised .illegalCommand
    · split at h
      · exact effect_of_finishOr_request rfl rfl h
      · cases h; exact .raised .badOperand
  | regSetid n a =>
    simp only [exec, execRegSetid] at h
    split at h
    · rename_i hc
      split at h
      · rename_i u hu
        obtain ⟨f, -, hb⟩ := (buildRequest_eq_ok _ _ _ _).mp hu
        obtain ⟨-, -, -, rfl⟩ := (envBuild_eq_ok _ _ _ _ _).mp hb
        cases h
        exact .renamed n a f _ rfl (by simp only [Bool.and_eq_true] at hc; exact of_decide_eq_true hc.1) hb
      · rename_i e _; cases h; exact .raised e
    · cases h; exact .raised .badOperand
  | regXtr d b =>
    simp only [exec, execRegXtr] at h
    split at h
    · split at h
      · cases h; exact .answered _
      · cases h; exact .raised _
    · cases h; exact .raised .badOperand
  | wireWrite => cases h; exact .raised .illegalCommand
  | wireRead => cases h; exact .raised .illegalCommand
  | wireStatus => cases h; exact .raised .illegalCommand

end Sys2Proof.Machine
end

