-- ==== Sys2Proof/Laws/PerInstr.lean ====
section
/-! SUPPORT. Statements about every instruction as syntax, one lemma per constructor. -/
namespace Sys2Proof.Laws

/-- The opcode is the whole first byte of the message (30_encoding.md R70, R86). -/
def OpcodeLeads.Statement (i : Instr) : Prop := (encode i).head? = some (opcode i)

theorem OpcodeLeads.sumClr : OpcodeLeads.Statement .sumClr := rfl
theorem OpcodeLeads.sumByte (b : Byte) : OpcodeLeads.Statement (.sumByte b) := rfl
theorem OpcodeLeads.sumGet : OpcodeLeads.Statement .sumGet := rfl
theorem OpcodeLeads.csum1 (s : List Byte) : OpcodeLeads.Statement (.csum1 s) := rfl
theorem OpcodeLeads.crcClr : OpcodeLeads.Statement .crcClr := rfl
theorem OpcodeLeads.crcByte (b : Byte) : OpcodeLeads.Statement (.crcByte b) := rfl
theorem OpcodeLeads.crcGet : OpcodeLeads.Statement .crcGet := rfl
theorem OpcodeLeads.crc16 (s : List Byte) : OpcodeLeads.Statement (.crc16 s) := rfl
theorem OpcodeLeads.pverSet (v : Byte) : OpcodeLeads.Statement (.pverSet v) := rfl
theorem OpcodeLeads.pverGet : OpcodeLeads.Statement .pverGet := rfl
theorem OpcodeLeads.idGet : OpcodeLeads.Statement .idGet := rfl
theorem OpcodeLeads.mapRd (k : Byte) : OpcodeLeads.Statement (.mapRd k) := rfl
theorem OpcodeLeads.envNewa (s : List Byte) : OpcodeLeads.Statement (.envNewa s) := rfl
theorem OpcodeLeads.envNewb (resp : U16) (s : List Byte) : OpcodeLeads.Statement (.envNewb resp s) := rfl
theorem OpcodeLeads.envConsume : OpcodeLeads.Statement .envConsume := rfl
theorem OpcodeLeads.envStat : OpcodeLeads.Statement .envStat := rfl
theorem OpcodeLeads.envRead : OpcodeLeads.Statement .envRead := rfl
theorem OpcodeLeads.f1Frame (resp : U16) (body : List Byte) : OpcodeLeads.Statement (.f1Frame resp body) := rfl
theorem OpcodeLeads.f2Frame (id : Byte) (instr : Byte) (resp : U16) (params : List Byte) : OpcodeLeads.Statement (.f2Frame id instr resp params) := rfl
theorem OpcodeLeads.f1Check (s : List Byte) : OpcodeLeads.Statement (.f1Check s) := rfl
theorem OpcodeLeads.f2Check (s : List Byte) : OpcodeLeads.Statement (.f2Check s) := rfl
theorem OpcodeLeads.regRd (d : Descriptor) : OpcodeLeads.Statement (.regRd d) := rfl
theorem OpcodeLeads.regWr (d : Descriptor) (ack : Byte) (data : List Byte) : OpcodeLeads.Statement (.regWr d ack data) := rfl
theorem OpcodeLeads.regSetid (newid : Byte) (ack : Byte) : OpcodeLeads.Statement (.regSetid newid ack) := rfl
theorem OpcodeLeads.regXtr (d : Descriptor) (s : List Byte) : OpcodeLeads.Statement (.regXtr d s) := rfl
theorem OpcodeLeads.wireWrite : OpcodeLeads.Statement .wireWrite := rfl
theorem OpcodeLeads.wireRead : OpcodeLeads.Statement .wireRead := rfl
theorem OpcodeLeads.wireStatus : OpcodeLeads.Statement .wireStatus := rfl

end Sys2Proof.Laws
end

