-- ==== Sys2Proof/Laws/Step.lean ====
section
/-! SUPPORT. What a step can do, once; runs; and the byte and size equations the statements are written
in. -/
namespace Sys2Proof.Machine

/-! ### Steps -/

theorem deliverable_eq_true (p : Params) (m : List Byte) :
    deliverable p m = true ↔ 1 ≤ m.length ∧ m.length ≤ p.msgMax := by simp [deliverable]

/-- A step with no input. -/
theorem step_idle {s : State} (h : s.inbox = []) : step s = .next s := by simp [step, h]

/-- A step with `Reset` next. -/
theorem step_reset {s : State} {rest : List Input} (h : s.inbox = .reset :: rest) :
    step s = .next (s.setInbox rest).resetEvent := by simp [step, h, takeInput]

/-- A step with a deliverable message next. -/
theorem step_command {s : State} {p : Party} {m : List Byte} {rest : List Input}
    (h : s.inbox = .command p m :: rest) (h1 : 1 ≤ m.length) (h2 : m.length ≤ s.params.msgMax) :
    step s = answer m (s.setInbox rest) := by
  have hd : deliverable (s.setInbox rest).params m = true := (deliverable_eq_true _ _).mpr ⟨h1, h2⟩
  simp only [step, h, takeInput, hd, if_true]

theorem answer_ok {m : List Byte} {i : Instr} (h : decode m = .ok i) (s : State) : answer m s = exec i s := by
  simp [answer, h]

theorem answer_error {m : List Byte} {e : DecodeError} (h : decode m = .error e) (s : State) :
    answer m s = .next (replied s [0x06]) := by
  simp only [answer, h]; rfl

/-- Everything a step that ends in a next state can have done. -/
theorem step_cases {s t : State} (h : step s = .next t) :
    (s.inbox = [] ∧ t = s) ∨
    (∃ rest, s.inbox = .reset :: rest ∧ t = (s.setInbox rest).resetEvent) ∨
    (∃ p m rest i, s.inbox = .command p m :: rest ∧ decode m = .ok i ∧ exec i (s.setInbox rest) = .next t) ∨
    (∃ p m rest e, s.inbox = .command p m :: rest ∧ decode m = .error e ∧
      t = replied (s.setInbox rest) [0x06]) := by
  unfold step at h
  split at h
  · rename_i hx; cases h; exact .inl ⟨hx, rfl⟩
  · rename_i x rest hx
    cases x with
    | reset => cases h; exact .inr (.inl ⟨rest, hx, rfl⟩)
    | command p m =>
      simp only [takeInput] at h
      split at h
      · cases hm : decode m with
        | ok i => rw [answer_ok hm] at h; exact .inr (.inr (.inl ⟨p, m, rest, i, hx, hm, h⟩))
        | error e =>
          rw [answer_error hm] at h; cases h
          exact .inr (.inr (.inr ⟨p, m, rest, e, hx, hm, rfl⟩))
      · cases h

theorem core_run_succ (M : Host.Core) (n : Nat) (s t : M.State) (h : M.step s = .next t) :
    M.run (n + 1) s = M.run n t := by simp [Host.Core.run, h]

@[simp] theorem run_zero (s : State) : run 0 s = .next s := rfl

/-- A run whose first step is answered goes on from there. -/
theorem run_succ (n : Nat) (s t : State) (h : step s = .next t) : run (n + 1) s = run n t :=
  core_run_succ Sys2Proof.core n s t h

/-- Whether the inputs waiting can all be delivered is decided input by input. -/
theorem inboxDeliverable_iff (s : State) :
    InboxDeliverable s ↔
      (s.inbox.all fun x => match x with | .command _ m => deliverable s.params m | .reset => true) = true := by
  rw [List.all_eq_true]
  constructor
  · intro h x hx
    cases x with
    | reset => rfl
    | command p m => exact (deliverable_eq_true _ _).mpr (h p m hx)
  · intro h p m hx
    exact (deliverable_eq_true _ _).mp (h _ hx)

/-! ### What an input feeds to the two accumulators -/

theorem sumFeed_eq_some (x : Input) (b : Byte) :
    sumFeed x = some b ↔ ∃ p m, x = .command p m ∧ decode m = .ok (.sumByte b) := by
  cases x with
  | reset => simp [sumFeed]
  | command p m =>
    simp only [sumFeed, Input.command.injEq]
    constructor
    · intro h
      split at h
      · rename_i hm; cases h; exact ⟨p, m, ⟨rfl, rfl⟩, hm⟩
      · cases h
    · rintro ⟨_, _, ⟨-, rfl⟩, hm⟩; simp [hm]

theorem crcFeed_eq_some (x : Input) (b : Byte) :
    crcFeed x = some b ↔ ∃ p m, x = .command p m ∧ decode m = .ok (.crcByte b) := by
  cases x with
  | reset => simp [crcFeed]
  | command p m =>
    simp only [crcFeed, Input.command.injEq]
    constructor
    · intro h
      split at h
      · rename_i hm; cases h; exact ⟨p, m, ⟨rfl, rfl⟩, hm⟩
      · cases h
    · rintro ⟨_, _, ⟨-, rfl⟩, hm⟩; simp [hm]

/-! ### What one operation leaves alone -/

theorem exec_params {i : Instr} {s t : State} (h : exec i s = .next t) : t.params = s.params := by
  cases effect_of_exec h <;> rfl

theorem exec_inbox {i : Instr} {s t : State} (h : exec i s = .next t) : t.inbox = s.inbox := by
  cases effect_of_exec h <;> rfl

theorem exec_resets {i : Instr} {s t : State} (h : exec i s = .next t) : t.resets = s.resets := by
  cases effect_of_exec h <;> rfl

/-! ### Bytes and sizes -/

theorem lo8_eq (v : U16) : lo8 v = BitVec.ofNat 8 (v.toNat % 256) := by
  apply BitVec.eq_of_toNat_eq
  rw [lo8_toNat]; simp

theorem hi8_eq (v : U16) : hi8 v = BitVec.ofNat 8 (v.toNat / 256) := by
  apply BitVec.eq_of_toNat_eq
  have := v.isLt
  rw [hi8_toNat]; simp; omega

theorem le2_eq (v : U16) : le2 v = [BitVec.ofNat 8 (v.toNat % 256), BitVec.ofNat 8 (v.toNat / 256)] := by
  rw [le2, lo8_eq, hi8_eq]

@[simp] theorem minpkt_v1 (p : Params) : minpkt p .v1 = p.v1MinPacket := rfl

@[simp] theorem minpkt_v2 (p : Params) : minpkt p .v2 = 12 := rfl

/-- Inside the constraints a response size fits 16 bits (45_framer_register.md R171). -/
theorem respSize_lt (p : Params) (h : p.Wf) (v : Version) (n : Byte) : respSize p v n.toNat < 65536 := by
  have := h.dataOffset
  have := n.isLt
  cases v <;> simp only [respSize, v2CrcLen, v1OffParam, v1CsumLen] <;> omega

theorem validDesc_eq_true (d : Descriptor) : validDesc d = true ↔ d.length ≠ 0 := by
  simp only [validDesc, decide_eq_true_eq]
  constructor
  · intro h h0; simp [h0] at h
  · intro h
    have : d.length.toNat ≠ 0 := fun h2 => h (BitVec.eq_of_toNat_eq h2)
    omega

theorem validAck_eq_true (a : Byte) : validAck a = true ↔ a.toNat ≤ 1 := by simp [validAck]

/-- The frame of a read request, in each version (45_framer_register.md R172). -/
theorem readFrame_v2 (s : State) (d : Descriptor) (h : s.pver = .v2) :
    readFrame s d = .ok (frame2 s.params s.motorId 0x04 [d.addressLow, d.addressHigh, d.length, 0x00]) := by
  simp only [readFrame, h]; rfl

theorem readFrame_v1 (s : State) (d : Descriptor) (h : s.pver = .v1) (ha : d.addressHigh = 0) :
    readFrame s d = .ok (frame1 s.params [s.motorId, 0x04, s.params.v1InstrRead, d.addressLow, d.length]) := by
  simp only [readFrame, h]; rw [if_pos ha]

theorem readFrame_v1_bad (s : State) (d : Descriptor) (h : s.pver = .v1) (ha : d.addressHigh ≠ 0) :
    readFrame s d = .error .badOperand := by
  simp only [readFrame, h]; rw [if_neg ha]

/-- The frame of a write request, in each version (R173). -/
theorem writeFrame_v2 (s : State) (d : Descriptor) (data : List Byte) (h : s.pver = .v2) :
    writeFrame s d data = .ok (frame2 s.params s.motorId 0x03 ([d.addressLow, d.addressHigh] ++ data)) := by
  simp only [writeFrame, h]; rfl

theorem writeFrame_v1 (s : State) (d : Descriptor) (data : List Byte) (h : s.pver = .v1)
    (ha : d.addressHigh = 0) (hl : d.length.toNat ≤ 252) :
    writeFrame s d data = .ok (frame1 s.params
      ([s.motorId, d.length + 3, s.params.v1InstrWrite, d.addressLow] ++ data)) := by
  simp only [writeFrame, h]; rw [if_pos ⟨ha, by omega⟩]

theorem writeFrame_v1_bad (s : State) (d : Descriptor) (data : List Byte) (h : s.pver = .v1)
    (hb : d.addressHigh ≠ 0 ∨ 252 < d.length.toNat) : writeFrame s d data = .error .badOperand := by
  simp only [writeFrame, h]
  rw [if_neg]
  rintro ⟨h1, h2⟩
  rcases hb with hb | hb
  · exact hb h1
  · omega

end Sys2Proof.Machine
end

