-- ==== Sys2Proof/Tests/Slice0.lean ====
section
/-! SUPPORT. Small tests of the model. Expected values are those of spec/95_test_vectors.md (named "V" with
its section) or of the examples inside the rules; the configuration is the one at the head of that file.
Last, for every obligation with hypotheses, a witness that meets them. -/
namespace Sys2Proof.Tests

open Sys2Proof Sys2Proof.Machine

-- One theorem at a time: each thread Lean starts for a theorem reserves its whole stack.
set_option Elab.async false

/-! ### Helpers -/

/-- The illustrative configuration of spec/95_test_vectors.md, with `PVER_RESET` as given. -/
def params (v : Version) : Params where
  crcTable := defaultCrcTable
  bufMax := 64
  msgMax := 69
  pverReset := v
  idReset := 1
  regmap := #v[⟨0x03, 0, 1⟩, ⟨0x19, 0, 1⟩, ⟨0x18, 0, 1⟩, ⟨0x29, 0, 2⟩, ⟨0x1E, 0, 2⟩, ⟨0x25, 0, 2⟩, ⟨0x20, 0, 2⟩,
    ⟨0x27, 0, 2⟩]
  convTorque := 0
  convAngle := 0
  convVelocity := 0
  v1MinPacket := 6
  v1SumStart := 0
  v1InstrRead := 0x02
  v1InstrWrite := 0x03
  v2ErrOffset := 8
  v2DataOffset := 9

theorem params_wf (v : Version) : (params v).Wf where
  bufMax_ge := by cases v <;> decide
  bufMax_le := by cases v <;> decide
  msgMax_ge := by cases v <;> decide
  regmap_length := by show ∀ k : Fin 8, 1 ≤ ((params .v1).regmap[k]).length.toNat; decide
  sumStart := .inl rfl
  v1MinPacket := by cases v <;> decide
  errOffset := by cases v <;> decide
  dataOffset := by cases v <;> decide

/-- A state as after reset under that configuration, with some values in the accumulators. -/
def start (v : Version) : State :=
  { State.resetWith (params v) 0 with sumAcc := 0x5A, crcAcc := 0x1234 }

/-- The v2 frame of `REG.RD d(1E,00,2)` (R172). -/
def readRequest : List Byte := [0xFF, 0xFF, 0xFD, 0x00, 0x01, 0x07, 0x00, 0x04, 0x1E, 0x00, 0x02, 0x00, 0x34, 0x48]

/-- The same with an envelope Pending. -/
def pending (v : Version) : State := (start v).openEnvelope readRequest 13

/-- The state with one message waiting. -/
def sent (s : State) (m : List Byte) : State := s.setInbox [.command .host m]

/-- What one step answers to a message. -/
def reply (s : State) (m : List Byte) : Option (List Byte) :=
  match step (sent s m) with
  | .next t => t.outbox.getLast?
  | _ => none

/-- The state one step with a message leaves. -/
def after (s : State) (m : List Byte) : State :=
  match step (sent s m) with
  | .next t => t
  | _ => s

/-- The bytes of the buffer under a Pending envelope. -/
def frameOf (s : State) : Option (List Byte) := memBytes s.buf 0 s.pktSize.toNat

/-- `n` bytes `AA`. -/
def aa (n : Nat) : List Byte := List.replicate n 0xAA

theorem next_with {r : StepResult} (p : State → Prop) [DecidablePred p]
    (h : (match r with | .next t => decide (p t) | _ => false) = true) : ∃ t, r = .next t ∧ p t := by
  cases r with
  | next t => exact ⟨t, rfl, of_decide_eq_true h⟩
  | fault f => cases h
  | refused f => cases h

theorem finishOr_answers (r : Except Err State) (s : State) : ∃ t, finishOr r s = .next t := by
  rcases finishOr_cases r s with ⟨t, -, h⟩ | ⟨e, -, h⟩
  · exact ⟨_, h⟩
  · exact ⟨_, h⟩

/-! ### Well-formedness: each check refuses a term -/

theorem test_wf_refuses_missing_data : (Instr.regWr ⟨0x19, 0x00, 2⟩ 1 [0x01]).wf = false := by decide
theorem test_wf_refuses_surplus_data : (Instr.regWr ⟨0x19, 0x00, 0⟩ 1 [0x01]).wf = false := by decide
theorem test_wf_refuses_wire_write : Instr.wireWrite.wf = false := rfl
theorem test_wf_refuses_wire_read : Instr.wireRead.wf = false := rfl
theorem test_wf_refuses_wire_status : Instr.wireStatus.wf = false := rfl

/-! ### Decoding: a word for every constructor, bit by bit from R72 to R76, R79, R86, R87 -/

theorem test_decode_sumClr : decode [0b00010000] = .ok .sumClr := rfl
theorem test_decode_sumByte : decode [0b00010001, 0b10000001] = .ok (.sumByte 0x81) := rfl
theorem test_decode_sumGet : decode [0b00010010] = .ok .sumGet := rfl
theorem test_decode_csum1 : decode [0b00010011, 0b00000001, 0b11111110] = .ok (.csum1 [0x01, 0xFE]) := rfl
theorem test_decode_crcClr : decode [0b00100000] = .ok .crcClr := rfl
theorem test_decode_crcByte : decode [0b00100001, 0b11111101] = .ok (.crcByte 0xFD) := rfl
theorem test_decode_crcGet : decode [0b00100010] = .ok .crcGet := rfl
theorem test_decode_crc16 : decode [0b00100011, 0b00000001, 0b00000000] = .ok (.crc16 [0x01, 0x00]) := rfl
theorem test_decode_pverSet : decode [0b00110000, 0b00000010] = .ok (.pverSet 2) := rfl
theorem test_decode_pverGet : decode [0b00110001] = .ok .pverGet := rfl
theorem test_decode_idGet : decode [0b00110010] = .ok .idGet := rfl
theorem test_decode_mapRd : decode [0b00110011, 0b00000100] = .ok (.mapRd 4) := rfl
theorem test_decode_envNewa : decode [0b01000000, 0b11111111, 0b00000001] = .ok (.envNewa [0xFF, 0x01]) := rfl
theorem test_decode_envNewb :
    decode [0b01000001, 0b00001011, 0b00000001, 0b11111111] = .ok (.envNewb 0x010B [0xFF]) := rfl
theorem test_decode_envConsume : decode [0b01000010] = .ok .envConsume := rfl
theorem test_decode_envStat : decode [0b01000011] = .ok .envStat := rfl
theorem test_decode_envRead : decode [0b01000100] = .ok .envRead := rfl
theorem test_decode_f1Frame :
    decode [0b01010000, 0b00000110, 0b00000010, 0b00000001] = .ok (.f1Frame 0x0206 [0x01]) := rfl
theorem test_decode_f2Frame :
    decode [0b01010001, 0b00000001, 0b00000100, 0b00001101, 0b00000010, 0b00011110]
      = .ok (.f2Frame 0x01 0x04 0x020D [0x1E]) := rfl
theorem test_decode_f1Check : decode [0b01010010, 0b11111111, 0b11111110] = .ok (.f1Check [0xFF, 0xFE]) := rfl
theorem test_decode_f2Check : decode [0b01010011, 0b11111111, 0b11111110] = .ok (.f2Check [0xFF, 0xFE]) := rfl
theorem test_decode_regRd :
    decode [0b01100000, 0b00110100, 0b00010010, 0b00000100] = .ok (.regRd ⟨0x34, 0x12, 4⟩) := rfl
theorem test_decode_regWr :
    decode [0b01100001, 0b00011110, 0b00000001, 0b00000010, 0b00000000, 0b00000101, 0b00000110]
      = .ok (.regWr ⟨0x1E, 0x01, 2⟩ 0 [0x05, 0x06]) := rfl
theorem test_decode_regSetid : decode [0b01100010, 0b00000101, 0b00000001] = .ok (.regSetid 5 1) := rfl
theorem test_decode_regXtr :
    decode [0b01100011, 0b00011110, 0b00000001, 0b00000010, 0b11111111] = .ok (.regXtr ⟨0x1E, 0x01, 2⟩ [0xFF]) := rfl
theorem test_decode_wireWrite : decodeWire 0b00000011 = some .wireWrite := rfl
theorem test_decode_wireRead : decodeWire 0b00000100 = some .wireRead := rfl
theorem test_decode_wireStatus : decodeWire 0b01010101 = some .wireStatus := rfl

/-- The 28 rows of the opcode table, each by its own word (operands zero). -/
theorem test_table_words_decode :
    [0x10, 0x11, 0x12, 0x13, 0x20, 0x21, 0x22, 0x23, 0x30, 0x31, 0x32, 0x33, 0x40, 0x41, 0x42, 0x43, 0x44, 0x50,
      0x51, 0x52, 0x53, 0x60, 0x61, 0x62, 0x63, 0x03, 0x04, 0x55].map (decodeTableWord 8)
    = [Instr.sumClr, .sumByte 0, .sumGet, .csum1 [], .crcClr, .crcByte 0, .crcGet, .crc16 [], .pverSet 0, .pverGet,
      .idGet, .mapRd 0, .envNewa [], .envNewb 0 [], .envConsume, .envStat, .envRead, .f1Frame 0 [],
      .f2Frame 0 0 0 [], .f1Check [], .f2Check [], .regRd ⟨0, 0, 0⟩, .regWr ⟨0, 0, 0⟩ 0 [], .regSetid 0 0,
      .regXtr ⟨0, 0, 0⟩ [], .wireWrite, .wireRead, .wireStatus].map some := by decide +kernel

/-- A table word with operand bits: its bytes, the first the least significant. -/
theorem test_table_word_operands :
    decodeTableWord 16 0x8111 = some (.sumByte 0x81) ∧ decodeTableWord 24 0x010562 = some (.regSetid 5 1) ∧
    decodeTableWord 8 0x99 = none := by decide +kernel

/-! ### The table words whose first step from reset depends on an open parameter (log 12) -/

theorem test_reset_runs_ENV_NEWA : ∃ t, step (State.reset.withFetchWord 8 0x40) = .next t :=
  finishOr_answers _ _

theorem test_reset_runs_ENV_NEWB : ∃ t, step (State.reset.withFetchWord 8 0x41) = .next t := by
  have h : ∀ s, ∃ t, execEnvNewb 0 [] s = .next t := by
    intro s
    unfold execEnvNewb
    split
    · exact ⟨_, rfl⟩
    · exact ⟨_, rfl⟩
  exact h _

theorem test_reset_runs_REG_SETID : ∃ t, step (State.reset.withFetchWord 8 0x62) = .next t := by
  have h : ∀ s, ∃ t, execRegSetid 0 0 s = .next t := by
    intro s
    unfold execRegSetid
    split
    · split
      · exact ⟨_, rfl⟩
      · exact ⟨_, rfl⟩
    · exact ⟨_, rfl⟩
  exact h _

/-! ### One step of each operation -/

/-- R101 example. -/
theorem test_sumClr : reply (start .v2) [0x10] = some [0x00] ∧ (after (start .v2) [0x10]).sumAcc = 0 := by
  decide +kernel
/-- R102 example and the wrap of its corner cases. -/
theorem test_sumByte_wraps :
    (after { start .v2 with sumAcc := 0xFE } [0x11, 0x05]).sumAcc = 0x03 ∧
    (after { start .v2 with sumAcc := 0xFF } [0x11, 0x01]).sumAcc = 0x00 := by decide +kernel
/-- R103 example. -/
theorem test_sumGet : reply { start .v2 with sumAcc := 0x04 } [0x12] = some [0x00, 0xFB] := by decide +kernel
/-- V 2.1. -/
theorem test_csum1 : reply (start .v2) [0x13, 0xFF, 0xFF, 0x01, 0x02, 0x03] = some [0x00, 0xFB] := by decide +kernel
/-- V 2.1, the table of `csum1`. -/
theorem test_csum1_table :
    [[], [0x00], [0x01], [0xFF], [0xFF, 0x01], [0x80, 0x80], List.replicate 255 0x01, List.replicate 256 0x01].map csum1
      = [0xFF, 0xFF, 0xFE, 0x00, 0xFF, 0xFF, 0x00, 0xFF] := by decide +kernel
/-- R114 example. -/
theorem test_crcClr : (after (start .v2) [0x20]).crcAcc = 0x0000 := by decide +kernel
/-- R115 example. -/
theorem test_crcByte : (after { start .v2 with crcAcc := 0x0202 } [0x21, 0xFF]).crcAcc = 0x800D := by decide +kernel
/-- R116 example: low byte first. -/
theorem test_crcGet : reply { start .v2 with crcAcc := 0x30E7 } [0x22] = some [0x00, 0xE7, 0x30] := by decide +kernel
/-- R117 example, the source's scenario. -/
theorem test_crc16 :
    reply (start .v2) [0x23, 0xFF, 0xFF, 0xFD, 0x00, 0x01, 0x00, 0x04, 0x02, 0x1E, 0x00] = some [0x00, 0xE7, 0x30] := by
  decide +kernel
/-- V 3: a published packet and its footer. -/
theorem test_crc16_published :
    reply (start .v2) [0x23, 0xFF, 0xFF, 0xFD, 0x00, 0x01, 0x07, 0x00, 0x02, 0x84, 0x00, 0x04, 0x00]
      = some [0x00, 0x1D, 0x15] := by decide +kernel
/-- R125 example. -/
theorem test_pverSet : (after (start .v1) [0x30, 0x02]).pver = .v2 ∧ reply (start .v1) [0x30, 0x03] = some [0x05] := by
  decide +kernel
/-- R126 example. -/
theorem test_pverGet : reply (start .v2) [0x31] = some [0x00, 0x02] := by decide +kernel
/-- R127 example. -/
theorem test_idGet : reply (start .v2) [0x32] = some [0x00, 0x01] := by decide +kernel
/-- V 2.3, slots at both ends and the first that is none. -/
theorem test_mapRd :
    reply (start .v2) [0x33, 0x00] = some [0x00, 0x03, 0x00, 0x01] ∧
    reply (start .v2) [0x33, 0x07] = some [0x00, 0x27, 0x00, 0x02] ∧ reply (start .v2) [0x33, 0x08] = some [0x05] := by
  decide +kernel
/-- R138 example. -/
theorem test_envNewa :
    frameOf (after (start .v1) [0x40, 0xFF, 0xFF, 0x01, 0x02, 0x01, 0xFD]) = some [0xFF, 0xFF, 0x01, 0x02, 0x01, 0xFD] ∧
    reply (start .v2) [0x40, 0xFF, 0xFF, 0x01, 0x02, 0x01, 0xFD] = some [0x01] := by decide +kernel
/-- V 2.4, capacity: 64 bytes fit, 65 do not, and that is judged before a busy slot. -/
theorem test_envNewa_capacity :
    reply (start .v2) (0x40 :: aa 64) = some [0x00] ∧ reply (start .v2) (0x40 :: aa 65) = some [0x04] ∧
    reply (pending .v2) (0x40 :: aa 65) = some [0x04] ∧ reply (pending .v2) (0x40 :: aa 64) = some [0x02] := by
  decide +kernel
/-- R139 example. -/
theorem test_envNewb :
    (after (start .v2) [0x41, 0x0B, 0x00, 0xFF, 0xFF, 0xFD, 0x00, 0x01, 0x06, 0x00, 0x03, 0x19, 0x00, 0x01, 0x2F,
      0x62]).respSize = 11 := by decide +kernel
/-- V 2.4, the order of the errors on a busy slot. -/
theorem test_envNewb_order :
    reply (pending .v2) [0x41, 0x00, 0x00, 0x00] = some [0x01] ∧
    reply (pending .v2) (0x41 :: 0x00 :: 0x00 :: aa 12) = some [0x05] ∧
    reply (pending .v2) (0x41 :: 0x01 :: 0x00 :: aa 12) = some [0x02] := by decide +kernel
/-- R140 example. -/
theorem test_envConsume :
    reply (pending .v2) [0x42] = some [0x00] ∧ (after (pending .v2) [0x42]).envState = .consumed ∧
    reply (after (pending .v2) [0x42]) [0x42] = some [0x03] := by decide +kernel
/-- V 2.8 and P2. -/
theorem test_envStat :
    reply (start .v2) [0x43] = some [0x00, 0x00, 0x00, 0x00, 0x00, 0x00] ∧
    reply (pending .v2) [0x43] = some [0x00, 0x01, 0x0E, 0x00, 0x0D, 0x00] := by decide +kernel
/-- V 2.6 and V 2.4. -/
theorem test_envRead :
    reply (pending .v2) [0x44] = some ([0x00, 0x0D, 0x00] ++ readRequest) ∧ reply (start .v2) [0x44] = some [0x03] := by
  decide +kernel
/-- R151 examples. -/
theorem test_f1Frame :
    frameOf (after (start .v2) [0x50, 0x00, 0x00, 0x01, 0x02, 0x01]) = some [0xFF, 0xFF, 0x01, 0x02, 0x01, 0xFD] ∧
    reply (start .v2) [0x50, 0x00, 0x00, 0x01, 0x02] = some [0x01] := by decide +kernel
/-- R151: with `V1_SUM_START = 2` the footer is `FB`. -/
theorem test_frame1_sum_start :
    frame1 { params .v1 with v1SumStart := 2 } [0x01, 0x02, 0x01] = [0xFF, 0xFF, 0x01, 0x02, 0x01, 0xFB] := by
  decide +kernel
/-- R152 example: `L = 7`, footer low byte first. -/
theorem test_f2Frame :
    frameOf (after (start .v1) [0x51, 0x01, 0x04, 0x0D, 0x00, 0x1E, 0x00, 0x02, 0x00]) = some readRequest ∧
    (after (start .v1) [0x51, 0x01, 0x04, 0x0D, 0x00, 0x1E, 0x00, 0x02, 0x00]).respSize = 13 := by decide +kernel
/-- R152: two parameters are the least. -/
theorem test_f2Frame_minimum :
    frameOf (after (start .v2) [0x51, 0xFE, 0x03, 0x00, 0x00, 0x19, 0x00])
      = some [0xFF, 0xFF, 0xFD, 0x00, 0xFE, 0x05, 0x00, 0x03, 0x19, 0x00, 0x98, 0xDB] ∧
    reply (start .v2) [0x51, 0x01, 0x01, 0x00, 0x00, 0x00] = some [0x01] := by decide +kernel
/-- V 2.5, F1.CHECK. -/
theorem test_f1Check :
    [[0xFF, 0xFF, 0x01, 0x04, 0x00, 0x00, 0x02, 0xFA], [0xFF, 0xFF, 0x01, 0x04, 0x00, 0x01, 0x02, 0xFA],
      [0xFF, 0xFE, 0x01, 0x04, 0x00, 0x00, 0x02, 0xFA], [0xFF, 0xFF, 0x01, 0x05, 0x00, 0x00, 0x02, 0xFA],
      [0xFF, 0xFF, 0x01, 0x04, 0x00], [], [0, 0, 0, 0, 0, 0]].map (fun s => reply (start .v2) (0x52 :: s))
    = [some [0x00, 0x00], some [0x00, 0x08], some [0x00, 0x0A], some [0x00, 0x18], some [0x00, 0x01],
      some [0x00, 0x01], some [0x00, 0x1A]] := by decide +kernel
/-- V 2.5, F2.CHECK. -/
theorem test_f2Check :
    [[0xFF, 0xFF, 0xFD, 0x00, 0x01, 0x06, 0x00, 0x55, 0x00, 0x00, 0x02, 0xC9, 0x5B],
      [0xFF, 0xFF, 0xFD, 0x00, 0x01, 0x06, 0x00, 0x55, 0x80, 0x00, 0x02, 0xCA, 0xD1],
      [0xFF, 0xFF, 0xFD, 0x00, 0x01, 0x06, 0x00, 0x55, 0x00, 0x00, 0x02, 0x5B, 0xC9],
      [0xFF, 0xFF, 0xFD, 0x01, 0x01, 0x06, 0x00, 0x55, 0x00, 0x00, 0x02, 0xC9, 0x5B],
      [0xFF, 0xFF, 0xFD, 0x00, 0x01, 0x06, 0x00, 0x04, 0x00, 0x00, 0x02, 0xD1, 0x0F],
      [0xFF, 0xFF, 0xFD, 0x00, 0x01, 0x07, 0x00, 0x55, 0x00, 0x00, 0x02, 0xCA, 0xA3],
      [0xFF, 0xFF, 0xFD, 0x00, 0x01, 0x04, 0x00, 0x55, 0x00, 0xA1], [0, 0, 0, 0, 0, 0, 0, 0, 0, 0, 0]].map
        (fun s => reply (start .v2) (0x53 :: s))
    = [some [0x00, 0x00], some [0x00, 0x80], some [0x00, 0x08], some [0x00, 0x0A], some [0x00, 0x04],
      some [0x00, 0x10], some [0x00, 0x01], some [0x00, 0x16]] := by decide +kernel
/-- V 2.6: the same message under both versions. -/
theorem test_regRd :
    frameOf (after (start .v2) [0x60, 0x1E, 0x00, 0x02]) = some readRequest ∧
    frameOf (after (start .v1) [0x60, 0x1E, 0x00, 0x02]) = some [0xFF, 0xFF, 0x01, 0x04, 0x02, 0x1E, 0x02, 0xDA] := by
  decide +kernel
/-- V 2.6: a 16-bit address, low byte first; refused under v1. -/
theorem test_regRd_address :
    frameOf (after (start .v2) [0x60, 0x34, 0x12, 0x04])
      = some [0xFF, 0xFF, 0xFD, 0x00, 0x01, 0x07, 0x00, 0x04, 0x34, 0x12, 0x04, 0x00, 0x50, 0x55] ∧
    reply (start .v1) [0x60, 0x1E, 0x01, 0x02] = some [0x05] := by decide +kernel
/-- R173 examples. -/
theorem test_regWr :
    frameOf (after (start .v2) [0x61, 0x19, 0x00, 0x01, 0x01, 0x01])
      = some [0xFF, 0xFF, 0xFD, 0x00, 0x01, 0x06, 0x00, 0x03, 0x19, 0x00, 0x01, 0x2F, 0x62] ∧
    frameOf (after (start .v1) [0x61, 0x19, 0x00, 0x01, 0x01, 0x01])
      = some [0xFF, 0xFF, 0x01, 0x04, 0x03, 0x19, 0x01, 0xDF] := by decide +kernel
/-- R173 examples: the acknowledgement decides the response size; a malformed length is judged first. -/
theorem test_regWr_ack :
    (after (start .v2) [0x61, 0x19, 0x00, 0x01, 0x01, 0x01]).respSize = 11 ∧
    (after (start .v2) [0x61, 0x1E, 0x00, 0x02, 0x00, 0x00, 0x02]).respSize = 0 ∧
    reply (start .v2) [0x61, 0x19, 0x00, 0x01, 0x02, 0x01] = some [0x05] ∧
    reply (start .v2) [0x61, 0x19, 0x00, 0x02, 0x01, 0x01] = some [0x06] := by decide +kernel
/-- R174 example: old identifier in the frame, new one stored. -/
theorem test_regSetid :
    frameOf (after (start .v2) [0x62, 0x05, 0x01])
      = some [0xFF, 0xFF, 0xFD, 0x00, 0x01, 0x06, 0x00, 0x03, 0x03, 0x00, 0x05, 0xFF, 0x63] ∧
    (after (start .v2) [0x62, 0x05, 0x01]).motorId = 5 := by decide +kernel
/-- R174 examples: the refusals keep the identifier. -/
theorem test_regSetid_refused :
    reply (start .v2) [0x62, 0xFD, 0x01] = some [0x05] ∧ reply (pending .v2) [0x62, 0x05, 0x01] = some [0x02] ∧
    (after (pending .v2) [0x62, 0x05, 0x01]).motorId = 1 := by decide +kernel
/-- R175 examples. -/
theorem test_regXtr :
    reply (start .v2) [0x63, 0x1E, 0x00, 0x02, 0xFF, 0xFF, 0xFD, 0x00, 0x05, 0x06, 0x00, 0x55, 0x00, 0x00, 0x02, 0x8A,
      0xDF] = some [0x00, 0x00, 0x02] ∧
    reply (start .v1) [0x63, 0x1E, 0x00, 0x02, 0xFF, 0xFF, 0x05, 0x04, 0x00, 0x00, 0x02, 0xF6]
      = some [0x00, 0x00, 0x02] := by decide +kernel
/-- V 2.6: alert, wrong size, a request frame, too short. -/
theorem test_regXtr_refused :
    reply (start .v2) [0x63, 0x1E, 0x00, 0x02, 0xFF, 0xFF, 0xFD, 0x00, 0x05, 0x06, 0x00, 0x55, 0x80, 0x00, 0x02, 0x89,
      0x55] = some [0x07, 0x80] ∧
    reply (start .v2) [0x63, 0x1E, 0x00, 0x01, 0xFF, 0xFF, 0xFD, 0x00, 0x05, 0x06, 0x00, 0x55, 0x00, 0x00, 0x02, 0x8A,
      0xDF] = some [0x07, 0x10] ∧
    reply (start .v2) (0x63 :: 0x1E :: 0x00 :: 0x02 :: readRequest) = some [0x07, 0x14] ∧
    reply (start .v2) [0x63, 0x1E, 0x00, 0x02] = some [0x07, 0x01] := by decide +kernel
/-- R88, R89: the wire codes are no commands. -/
theorem test_wire_codes_are_illegal :
    reply (start .v2) [0x03] = some [0x06] ∧ reply (start .v2) [0x04] = some [0x06] ∧
    reply (start .v2) [0x55] = some [0x06] := by decide +kernel
/-- R70: a message longer than `MSG_MAX` is not a step of the block (log 4). -/
theorem test_undeliverable : step (sent (start .v2) (0x13 :: aa 69)) = .refused .undeliverable := rfl
/-- V 2.8. -/
theorem test_reset_event :
    (match step ((after (start .v2) [0x62, 0x05, 0x01]).setInbox [.reset]) with
      | .next t => decide (t.motorId = 1 ∧ t.envState = .empty ∧ t.pktSize = 0 ∧ t.respSize = 0)
      | _ => false) = true := by decide +kernel

/-! ### Witnesses: for every obligation with hypotheses, states and operands that meet them, for each clause,
at the ends of its range where it has one -/

theorem start_inv (v : Version) : BlockInv (start v) :=
  ⟨params_wf v, fun h => (by cases h), fun _ => ⟨rfl, rfl⟩, .inl rfl, rfl, fun a h => (by cases h),
    fun h => (by cases h), fun _ => rfl⟩

theorem readRequest_built (v : Version) : Built (start v) (replied (pending v) [0x00]) readRequest 13 :=
  built_of_openEnvelope (start v) readRequest 13 (by decide)

theorem pending_get (v : Version) (a : Nat) : memGet (pending v).buf a = readRequest[a]? := by
  show memGet (memWrite [] 0 readRequest) a = _
  rw [memGet_memWrite]
  by_cases h : a < readRequest.length
  · simp [h]
  · simp [h]

theorem pending_inv (v : Version) : BlockInv (pending v) where
  params_wf := params_wf v
  pending_size _ := by cases v <;> decide
  idle_size h := absurd rfl h
  id_range := .inl rfl
  buf_wf := rfl
  buf_range a h := by
    rw [pending_get] at h
    have : a < readRequest.length := by
      by_cases h2 : a < readRequest.length
      · exact h2
      · simp [h2] at h
    exact Nat.lt_trans this (by cases v <;> decide)
  buf_held _ a h := by
    rw [pending_get]
    have h2 : a < readRequest.length := h
    simp [h2]
  buf_idle h := absurd rfl h

theorem witness_DecodeReadsEveryEncodedOperation :
    Instr.sumClr.wf = true ∧ (Instr.envNewa []).wf = true ∧ (Instr.f2Frame 1 4 0x0102 (aa 70)).wf = true ∧
    (Instr.regWr ⟨1, 2, 0⟩ 0 []).wf = true ∧ (Instr.regWr ⟨1, 2, 255⟩ 1 (aa 255)).wf = true := by decide +kernel

theorem witness_EveryAcceptedMessageIsItsEncoding :
    decode [0x61, 1, 2, 0, 9] = .ok (.regWr ⟨1, 2, 0⟩ 9 []) ∧ decode [0x10] = .ok .sumClr := ⟨rfl, rfl⟩

/-- Both ends of each unlisted range are unlisted, and the opcodes next to them are not. -/
theorem witness_UnassignedOpcodesAreIllegal :
    ([0x00, 0x0F, 0x14, 0x1F, 0x24, 0x2F, 0x34, 0x3F, 0x45, 0x4F, 0x54, 0x5F, 0x64, 0xFF].all fun op : Byte =>
      decide (op.toNat ≤ 0x0F ∨ (0x14 ≤ op.toNat ∧ op.toNat ≤ 0x1F) ∨ (0x24 ≤ op.toNat ∧ op.toNat ≤ 0x2F) ∨
      (0x34 ≤ op.toNat ∧ op.toNat ≤ 0x3F) ∨ (0x45 ≤ op.toNat ∧ op.toNat ≤ 0x4F) ∨
      (0x54 ≤ op.toNat ∧ op.toNat ≤ 0x5F) ∨ 0x64 ≤ op.toNat)) = true ∧
    ([0x10, 0x13, 0x20, 0x23, 0x30, 0x33, 0x40, 0x44, 0x50, 0x53, 0x60, 0x63].all fun op : Byte =>
      decide (¬ (op.toNat ≤ 0x0F ∨ (0x14 ≤ op.toNat ∧ op.toNat ≤ 0x1F) ∨ (0x24 ≤ op.toNat ∧ op.toNat ≤ 0x2F) ∨
      (0x34 ≤ op.toNat ∧ op.toNat ≤ 0x3F) ∨ (0x45 ≤ op.toNat ∧ op.toNat ≤ 0x4F) ∨
      (0x54 ≤ op.toNat ∧ op.toNat ≤ 0x5F) ∨ 0x64 ≤ op.toNat))) = true := by decide

theorem witness_MisfitLengthsAreIllegal :
    ((0x10 : Byte) ∈ ([0x10, 0x12, 0x20, 0x22, 0x31, 0x32, 0x42, 0x43, 0x44] : List Byte) ∧
      ([0x10, 0] : List Byte).length ≠ 1) ∧
    ((0x33 : Byte) ∈ ([0x11, 0x21, 0x30, 0x33] : List Byte) ∧ ([0x33] : List Byte).length ≠ 2 ∧
      ([0x33, 0, 0] : List Byte).length ≠ 2) ∧
    ((0x50 : Byte) ∈ ([0x41, 0x50] : List Byte) ∧ ([0x50, 0] : List Byte).length < 3) ∧
    ([0x51, 0, 0, 0] : List Byte).length < 5 ∧
    (([0x60, 0, 0] : List Byte).length ≠ 4 ∧ ([0x60, 0, 0, 0, 0] : List Byte).length ≠ 4) ∧
    (([0x61, 0, 0, 0] : List Byte).length < 5 ∧
      ([0x61, 0, 0, 1, 0] : List Byte).length ≠ 5 + (byteAt [0x61, 0, 0, 1, 0] 3).toNat) ∧
    (([0x62, 0] : List Byte).length ≠ 3 ∧ ([0x62, 0, 0, 0] : List Byte).length ≠ 3) ∧
    ([0x63, 0, 0] : List Byte).length < 4 ∧
    (0x53 : Byte) ∈ ([0x13, 0x23, 0x40, 0x52, 0x53] : List Byte) := by decide

theorem witness_WireCodesAreNoCommands :
    (0x00 : Byte) ≠ 0x03 ∧ (0x05 : Byte) ≠ 0x04 ∧ (0x56 : Byte) ≠ 0x55 ∧ ((0x05 : Byte) ≠ 0x03 ∧ (0x05 : Byte) ≠ 0x55) := by
  decide

/-- The shortest and the longest message that can be delivered; and no message. -/
theorem witness_StepRunsTheDecodedOperation :
    ((sent (start .v2) [0x10]).inbox = .command .host [0x10] :: [] ∧ 1 ≤ [(0x10 : Byte)].length ∧
      [(0x10 : Byte)].length ≤ (start .v2).params.msgMax ∧ decode [0x10] = .ok .sumClr) ∧
    ((sent (start .v2) (0x13 :: aa 68)).inbox = .command .host (0x13 :: aa 68) :: [] ∧
      (0x13 :: aa 68).length = (start .v2).params.msgMax ∧ decode (0x13 :: aa 68) = .ok (.csum1 (aa 68))) ∧
    (start .v2).inbox = [] :=
  ⟨⟨rfl, by decide, by decide, rfl⟩, ⟨rfl, by decide, rfl⟩, rfl⟩

theorem witness_StepAnswersIllegalCommand :
    ((sent (start .v2) [0x99]).inbox = .command .host [0x99] :: [] ∧ 1 ≤ [(0x99 : Byte)].length ∧
      [(0x99 : Byte)].length ≤ (start .v2).params.msgMax ∧ decode [0x99] = .error (.unassignedOpcode 0x99)) ∧
    (decode (0x10 :: aa 68) = .error (.malformedLength 0x10) ∧ (0x10 :: aa 68).length = (start .v2).params.msgMax) :=
  ⟨⟨rfl, by decide, by decide, rfl⟩, rfl, by decide⟩

theorem witness_ResetDiscardsTheEnvelope :
    ((pending .v2).setInbox [.reset, .command .host [0x43]]).inbox = .reset :: [.command .host [0x43]] := rfl

theorem witness_Csum1IsTheComplementOfTheSum :
    (([0xFF, 0x01] : List Byte).map BitVec.toNat).sum % 256 = (([] : List Byte).map BitVec.toNat).sum % 256 ∧
    ([0x01, 0x02] : List Byte).Perm [0x02, 0x01] := by decide

/-- The lengths next to the one each of these formats has. -/
theorem witness_one_operand_formats :
    ([] : List Byte).length ≠ 1 ∧ ([0x01, 0x02] : List Byte).length ≠ 1 := by decide

/-- A run that streams two bytes from either party: with nothing between, and with a read, a malformed message, a
build and the other accumulator's operations between. -/
abbrev streamed (clear byte get : Byte) (s : State) : State :=
  s.setInbox [.command .host [clear], .command .host [byte, 0xFF], .command .transport [byte, 0x01],
    .command .host [get]]

/-- What stands between in the second clause. -/
abbrev mixed : List Input :=
  [.command .host [0x11, 0xFF], .command .transport [0x44], .command .host [0x21, 0xFD], .command .host [0x99],
    .command .host [0x60, 0x1E, 0x00, 0x02], .command .transport [0x11, 0x01]]

theorem mixed_deliverable (v : Version) (clear get : Byte) :
    InboxDeliverable ((start v).setInbox (.command .host [clear] :: mixed ++ [.command .transport [get]])) :=
  (inboxDeliverable_iff _).mpr rfl

theorem mixed_continues : (∀ x ∈ mixed, Continues .sumClr x) ∧ ∀ x ∈ mixed, Continues .crcClr x := by
  constructor
  all_goals
    intro x hx
    simp only [mixed, List.mem_cons, List.not_mem_nil, or_false] at hx
    rcases hx with rfl | rfl | rfl | rfl | rfl | rfl <;> exact ⟨_, _, rfl, fun h => by cases h⟩

theorem setInbox_inv (v : Version) (l : List Input) : BlockInv ((start v).setInbox l) := by
  have h := start_inv v
  exact ⟨h.1, h.2, h.3, h.4, h.5, h.6, h.7, h.8⟩

theorem witness_StreamedSumEqualsOneShot :
    ((start .v2).params.Wf ∧ (streamed 0x10 0x11 0x12 (start .v2)).inbox
      = .command .host [0x10] :: (([(.host, 0xFF), (.transport, 0x01)] : List (Party × Byte)).map
          fun x => Input.command x.1 [0x11, x.2]) ++ [.command .host [0x12]]) ∧
    (BlockInv ((start .v2).setInbox (.command .host [0x10] :: mixed ++ [.command .transport [0x12]])) ∧
      InboxDeliverable ((start .v2).setInbox (.command .host [0x10] :: mixed ++ [.command .transport [0x12]])) ∧
      (∀ x ∈ mixed, Continues .sumClr x) ∧ mixed.filterMap sumFeed = [0xFF, 0x01]) :=
  ⟨⟨params_wf _, rfl⟩, setInbox_inv _ _, mixed_deliverable _ _ _, mixed_continues.1, rfl⟩

theorem witness_StreamedCrcEqualsOneShot :
    ((start .v2).params.Wf ∧ (streamed 0x20 0x21 0x22 (start .v2)).inbox
      = .command .host [0x20] :: (([(.host, 0xFF), (.transport, 0x01)] : List (Party × Byte)).map
          fun x => Input.command x.1 [0x21, x.2]) ++ [.command .host [0x22]]) ∧
    (BlockInv ((start .v2).setInbox (.command .host [0x20] :: mixed ++ [.command .transport [0x22]])) ∧
      InboxDeliverable ((start .v2).setInbox (.command .host [0x20] :: mixed ++ [.command .transport [0x22]])) ∧
      (∀ x ∈ mixed, Continues .crcClr x) ∧ mixed.filterMap crcFeed = [0xFD]) :=
  ⟨⟨params_wf _, rfl⟩, setInbox_inv _ _, mixed_deliverable _ _ _, mixed_continues.2, rfl⟩

/-- For the four statements about `crc16` under the default table. -/
theorem witness_Crc16OfDefaultTable :
    (params .v2).crcTable = defaultCrcTable ∧ ([0x01, 0x02] : List Byte).length = ([0x10, 0x20] : List Byte).length ∧
    (0x00 : Byte) ≠ 0x01 := ⟨rfl, rfl, by decide⟩

theorem witness_CrcByteFoldsTheByte :
    ({ start .v2 with crcAcc := 0 }).params.crcTable = defaultCrcTable ∧ ({ start .v2 with crcAcc := 0 }).crcAcc = 0 ∧
    ([] : List Byte).length ≠ 1 ∧ ([0x01, 0x02] : List Byte).length ≠ 1 := ⟨rfl, rfl, by decide, by decide⟩

theorem witness_Crc16AnswersLowByteFirst : (start .v2).params.crcTable = defaultCrcTable := rfl

theorem witness_PverSetSelectsOneOrTwo :
    ((0 : Byte) ≠ 1 ∧ (0 : Byte) ≠ 2) ∧ ((3 : Byte) ≠ 1 ∧ (3 : Byte) ≠ 2) ∧ ((255 : Byte) ≠ 1 ∧ (255 : Byte) ≠ 2) := by
  decide

theorem witness_IdGetAnswersTheIdentifier :
    (∃ t, exec (.regSetid 252 1) (start .v2) = .next t ∧ t.outbox = (start .v2).outbox ++ [[0x00]]) ∧
    (∃ t, exec (.regSetid 253 1) (start .v2) = .next t ∧ t.outbox ≠ (start .v2).outbox ++ [[0x00]]) ∧
    (∃ t, exec (.regSetid 5 1) (pending .v2) = .next t ∧ t.outbox ≠ (pending .v2).outbox ++ [[0x00]]) ∧
    (∃ t, exec .envConsume (pending .v2) = .next t ∧ ∀ n ack, Instr.envConsume ≠ .regSetid n ack) :=
  ⟨next_with (fun t => t.outbox = (start .v2).outbox ++ [[0x00]]) (by decide +kernel),
    next_with (fun t => t.outbox ≠ (start .v2).outbox ++ [[0x00]]) (by decide +kernel),
    next_with (fun t => t.outbox ≠ (pending .v2).outbox ++ [[0x00]]) (by decide +kernel), _, rfl, fun _ _ h => by cases h⟩

theorem witness_MapRdAnswersTheDescriptor :
    (0 : Byte).toNat < 8 ∧ (7 : Byte).toNat < 8 ∧ 7 < (8 : Byte).toNat ∧ 7 < (255 : Byte).toNat ∧
    (start .v2).params.Wf ∧ ∃ t, exec (.mapRd 7) (start .v2) = .next t ∧ t.outbox = [[0x00, 0x27, 0x00, 0x02]] :=
  ⟨by decide, by decide, by decide, by decide, params_wf _, next_with (fun t => t.outbox = [[0x00, 0x27, 0x00, 0x02]])
    (by decide +kernel)⟩

/-- Sizes next to the minimum and to the capacity, under each version, with the slot free and busy: for
ENV.NEWA, ENV.NEWB, F1.FRAME and F2.FRAME. -/
theorem witness_EnvNewaBuildsVariantA :
    (start .v1).params.Wf ∧ (start .v2).params.Wf ∧
    ((aa 5).length < (start .v1).params.v1MinPacket ∧ (start .v1).pver = .v1) ∧
    ((aa 11).length < 12 ∧ (start .v2).pver = .v2) ∧
    (12 ≤ (aa 65).length ∧ (start .v2).params.bufMax < (aa 65).length) ∧
    ((start .v1).params.v1MinPacket ≤ (aa 6).length ∧ (aa 6).length ≤ (pending .v1).params.bufMax ∧
      (pending .v1).envState = .pending) ∧
    (12 ≤ (aa 12).length ∧ (aa 64).length ≤ (start .v2).params.bufMax ∧ (start .v2).envState ≠ .pending) ∧
    ((start .v1).params.v1MinPacket ≤ (aa 6).length ∧ (start .v1).envState ≠ .pending) :=
  ⟨params_wf _, params_wf _, by decide +kernel⟩

theorem witness_EnvNewbBuildsVariantB :
    (start .v1).params.Wf ∧ (start .v2).params.Wf ∧
    ((aa 11).length < 12 ∧ (start .v2).pver = .v2) ∧
    (12 ≤ (aa 12).length ∧ (0 : U16) = 0) ∧
    (12 ≤ (aa 65).length ∧ (1 : U16) ≠ 0 ∧ (start .v2).params.bufMax < (aa 65).length) ∧
    (12 ≤ (aa 12).length ∧ (1 : U16) ≠ 0 ∧ (aa 12).length ≤ (pending .v2).params.bufMax ∧
      (pending .v2).envState = .pending) ∧
    (12 ≤ (aa 64).length ∧ (0xFFFF : U16) ≠ 0 ∧ (aa 64).length ≤ (start .v2).params.bufMax ∧
      (start .v2).envState ≠ .pending) ∧
    ((start .v1).params.v1MinPacket ≤ (aa 6).length ∧ (start .v1).envState ≠ .pending) ∧
    (0x010B : U16) = u16le 0x0B 0x01 ∧ ([0x0B] : List Byte).length < 2 :=
  ⟨params_wf _, params_wf _, by decide +kernel⟩

theorem witness_EnvConsumeReleasesOnce :
    (pending .v2).envState = .pending ∧ (start .v2).envState ≠ .pending ∧
    (after (pending .v2) [0x42]).envState ≠ .pending := by decide +kernel

theorem witness_EnvStatAnswersStateAndSizes : BlockInv (start .v2) ∧ (start .v2).envState ≠ .pending :=
  ⟨start_inv _, by decide⟩

theorem witness_EnvReadAnswersTheFrame :
    (BlockInv (pending .v2) ∧ (pending .v2).envState = .pending) ∧
    (BlockInv (start .v2) ∧ (start .v2).envState ≠ .pending) :=
  ⟨⟨pending_inv _, rfl⟩, start_inv _, by decide⟩

theorem witness_BuiltEnvelopeReadsBack :
    Built (start .v2) (replied (pending .v2) [0x00]) readRequest 13 ∧
    readRequest.length ≤ (replied (pending .v2) [0x00]).params.bufMax := ⟨readRequest_built _, by decide⟩

theorem witness_PendingEnvelopeSurvives :
    (pending .v2).envState = .pending ∧ Instr.pverSet 1 ≠ .envConsume ∧
    ∃ t, exec (.pverSet 1) (pending .v2) = .next t ∧ t.pver = .v1 :=
  ⟨rfl, by decide, next_with (fun t => t.pver = .v1) (by decide +kernel)⟩

theorem witness_Frame1IsHeaderBodyChecksum :
    (params .v1).v1SumStart = 0 ∧ ({ params .v1 with v1SumStart := 2 }).v1SumStart = 2 := ⟨rfl, rfl⟩

theorem witness_F1FrameBuildsTheFrame :
    (start .v2).params.Wf ∧ (aa 2).length + 3 < (start .v2).params.v1MinPacket ∧
    ((start .v2).params.v1MinPacket ≤ (aa 62).length + 3 ∧ (start .v2).params.bufMax < (aa 62).length + 3) ∧
    ((start .v2).params.v1MinPacket ≤ (aa 3).length + 3 ∧ (aa 3).length + 3 ≤ (pending .v2).params.bufMax ∧
      (pending .v2).envState = .pending) ∧
    ((start .v2).params.v1MinPacket ≤ (aa 3).length + 3 ∧ (aa 61).length + 3 ≤ (start .v2).params.bufMax ∧
      (start .v2).envState ≠ .pending) ∧
    (0x0206 : U16) = u16le 0x06 0x02 ∧ ([0x06] : List Byte).length < 2 :=
  ⟨params_wf _, by decide +kernel⟩

theorem witness_Frame2IsHeaderLengthParametersCrc :
    (aa 0).length + 3 ≤ 65535 ∧ (aa 65532).length + 3 ≤ 65535 := by
  rw [aa, aa, List.length_replicate, List.length_replicate]; decide

theorem witness_F2FrameBuildsTheFrame :
    (start .v1).params.Wf ∧ (aa 1).length < 2 ∧ 65532 < (aa 65533).length ∧
    (2 ≤ (aa 55).length ∧ (aa 55).length ≤ 65532 ∧ (start .v1).params.bufMax < (aa 55).length + 10) ∧
    (2 ≤ (aa 2).length ∧ (aa 2).length + 10 ≤ (pending .v1).params.bufMax ∧ (pending .v1).envState = .pending) ∧
    (2 ≤ (aa 2).length ∧ (aa 54).length + 10 ≤ (start .v1).params.bufMax ∧ (start .v1).envState ≠ .pending) ∧
    (0x020D : U16) = u16le 0x0D 0x02 ∧ ([0x01, 0x04, 0x0D] : List Byte).length < 4 :=
  ⟨params_wf _, by decide, by rw [aa, List.length_replicate]; decide, by decide +kernel⟩

theorem witness_F1CheckReportsEachDefect :
    (start .v1).params.Wf ∧ (aa 5).length < 6 ∧ 6 ≤ (aa 6).length ∧
    [0xFF, 0xFF, 0x01, 0x02, 0x01, 0xFD] = frame1 (start .v1).params [0x01, 0x02, 0x01] :=
  ⟨params_wf _, by decide +kernel⟩

theorem witness_F2CheckReportsEachDefect :
    (start .v1).params.Wf ∧ (aa 10).length < (start .v1).params.v2DataOffset + 2 ∧
    (start .v1).params.v2DataOffset + 2 ≤ (aa 11).length ∧
    [0xFF, 0xFF, 0xFD, 0x00, 0x01, 0x04, 0x00, 0x55, 0x00, 0xA1, 0x0C] = frame2 (start .v1).params 0x01 0x55 [0x00] ∧
    ([0x00] : List Byte).length + 3 ≤ 65535 :=
  ⟨params_wf _, by decide +kernel⟩

theorem witness_RegRdBuildsTheReadRequest :
    (start .v1).params.Wf ∧ (⟨0x1E, 0, 0⟩ : Descriptor).length = 0 ∧
    ((start .v1).pver = .v1 ∧ (⟨0x1E, 1, 2⟩ : Descriptor).addressHigh ≠ 0) ∧
    ((⟨0x1E, 1, 1⟩ : Descriptor).length ≠ 0 ∧ (pending .v2).pver = .v2 ∧ (pending .v2).envState = .pending) ∧
    ((⟨0x1E, 0, 1⟩ : Descriptor).length ≠ 0 ∧ (⟨0x1E, 0, 1⟩ : Descriptor).addressHigh = 0 ∧
      (pending .v1).envState = .pending) ∧
    ((⟨0x1E, 1, 255⟩ : Descriptor).length ≠ 0 ∧ (start .v2).pver = .v2 ∧ (start .v2).envState ≠ .pending) ∧
    ((⟨0x1E, 0, 255⟩ : Descriptor).length ≠ 0 ∧ (start .v1).pver = .v1 ∧
      (⟨0x1E, 0, 255⟩ : Descriptor).addressHigh = 0 ∧ (start .v1).envState ≠ .pending) ∧
    (([0x1E, 0x00] : List Byte).length ≠ 3 ∧ ([0x1E, 0x00, 0x02, 0x00] : List Byte).length ≠ 3) :=
  ⟨params_wf _, by decide +kernel⟩

/-- When a write is refused as a bad operand, as `RegWrBuildsTheWriteRequest` writes it. -/
abbrev badWrite (s : State) (d : Descriptor) (ack : Byte) : Prop :=
  d.length = 0 ∨ 1 < ack.toNat ∨ (s.pver = .v1 ∧ (d.addressHigh ≠ 0 ∨ 252 < d.length.toNat))

theorem witness_RegWrBuildsTheWriteRequest :
    (start .v1).params.Wf ∧ (start .v2).params.Wf ∧
    (badWrite (start .v2) ⟨0x19, 0, 0⟩ 0 ∧ badWrite (start .v2) ⟨0x19, 0, 1⟩ 2 ∧ badWrite (start .v1) ⟨0x19, 1, 1⟩ 0 ∧
      badWrite (start .v1) ⟨0x19, 0, 253⟩ 0 ∧ (aa 253).length = (253 : Byte).toNat) ∧
    (¬ badWrite (start .v2) ⟨0x19, 0, 53⟩ 1 ∧ (aa 53).length = (53 : Byte).toNat ∧
      (start .v2).params.bufMax < 12 + (53 : Byte).toNat) ∧
    (¬ badWrite (start .v1) ⟨0x19, 0, 252⟩ 1 ∧ (aa 252).length = (252 : Byte).toNat ∧
      (start .v1).params.bufMax < 7 + (252 : Byte).toNat) ∧
    (¬ badWrite (pending .v1) ⟨0x19, 0, 57⟩ 1 ∧ (aa 57).length = (57 : Byte).toNat ∧
      7 + (57 : Byte).toNat ≤ (pending .v1).params.bufMax ∧ (pending .v1).envState = .pending) ∧
    (¬ badWrite (start .v2) ⟨0x19, 1, 52⟩ 1 ∧ (aa 52).length = (52 : Byte).toNat ∧
      12 + (52 : Byte).toNat ≤ (start .v2).params.bufMax ∧ (start .v2).envState ≠ .pending ∧ (start .v2).pver = .v2) ∧
    (¬ badWrite (start .v1) ⟨0x19, 0, 57⟩ 0 ∧ (aa 57).length = (57 : Byte).toNat ∧
      7 + (57 : Byte).toNat ≤ (start .v1).params.bufMax ∧ (start .v1).envState ≠ .pending ∧ (start .v1).pver = .v1) ∧
    ([0x19, 0x00, 0x01] : List Byte).length < 4 ∧ ([] : List Byte).length ≠ (1 : Byte).toNat :=
  ⟨params_wf _, params_wf _, by decide +kernel, by decide +kernel, by decide +kernel, by decide +kernel,
    by decide +kernel, by decide +kernel, by decide⟩

theorem witness_RegWrOfWrongLengthIsIllegal :
    ([] : List Byte).length ≠ (1 : Byte).toNat ∧ ([0x01] : List Byte).length ≠ (0 : Byte).toNat := by decide

/-- When a set-ID is refused as a bad operand, as `RegSetidRenamesWhenTheFrameIsBuilt` writes it. -/
abbrev badSetid (s : State) (newid ack : Byte) : Prop :=
  252 < newid.toNat ∨ 1 < ack.toNat ∨
    (s.pver = .v1 ∧ ((s.params.regmap[0]).addressHigh ≠ 0 ∨ 252 < (s.params.regmap[0]).length.toNat))

/-- The illustrative configuration with another id descriptor. -/
def withId (d : Descriptor) (s : State) : State := { s with params := { s.params with regmap := s.params.regmap.set 0 d } }

theorem withId_wf (v : Version) (d : Descriptor) (h : 1 ≤ d.length.toNat) : (withId d (start v)).params.Wf where
  bufMax_ge := (params_wf v).bufMax_ge
  bufMax_le := (params_wf v).bufMax_le
  msgMax_ge := (params_wf v).msgMax_ge
  regmap_length k := by
    have h0 := (params_wf v).regmap_length k
    show 1 ≤ (((params v).regmap.set 0 d)[k]).length.toNat
    simp only [Fin.getElem_fin, Vector.getElem_set] at h0 ⊢
    split
    · exact h
    · exact h0
  sumStart := (params_wf v).sumStart
  v1MinPacket := (params_wf v).v1MinPacket
  errOffset := (params_wf v).errOffset
  dataOffset := (params_wf v).dataOffset

theorem witness_RegSetidRenamesWhenTheFrameIsBuilt :
    (start .v2).params.Wf ∧ (withId ⟨3, 0, 53⟩ (start .v2)).params.Wf ∧ (withId ⟨3, 1, 1⟩ (start .v1)).params.Wf ∧
    (badSetid (start .v2) 253 0 ∧ badSetid (start .v2) 252 2 ∧ badSetid (withId ⟨3, 1, 1⟩ (start .v1)) 5 0) ∧
    (¬ badSetid (withId ⟨3, 0, 53⟩ (start .v2)) 252 1 ∧ (withId ⟨3, 0, 53⟩ (start .v2)).params.bufMax < 12 + 53) ∧
    (¬ badSetid (pending .v2) 0 1 ∧ 12 + 1 ≤ (pending .v2).params.bufMax ∧ (pending .v2).envState = .pending) ∧
    (¬ badSetid (start .v2) 252 1 ∧ 12 + 1 ≤ (start .v2).params.bufMax ∧ (start .v2).envState ≠ .pending) ∧
    (¬ badSetid (start .v1) 0 0 ∧ 7 + 1 ≤ (start .v1).params.bufMax ∧ (start .v1).envState ≠ .pending) ∧
    (([0x05] : List Byte).length ≠ 2 ∧ ([0x05, 0x00, 0x00] : List Byte).length ≠ 2) :=
  ⟨params_wf _, withId_wf _ _ (by decide), withId_wf _ _ (by decide), by decide +kernel⟩

theorem witness_RegXtrExtractsOrReports :
    ((⟨0x1E, 0, 0⟩ : Descriptor).length = 0 ∧ (start .v1).pver = .v1 ∧ (⟨0x1E, 1, 2⟩ : Descriptor).addressHigh ≠ 0) ∧
    (check2 (params .v2) (aa 10) ≠ 0 ∧ (2 : Byte) ≠ 0 ∧ (start .v2).pver ≠ .v1) ∧
    (check2 (params .v2) [0xFF, 0xFF, 0xFD, 0x00, 0x05, 0x06, 0x00, 0x55, 0x00, 0x00, 0x02, 0x8A, 0xDF] = 0 ∧
      [0xFF, 0xFF, 0xFD, 0x00, 0x05, 0x06, 0x00, 0x55, 0x00, 0x00, 0x02, 0x8A, (0xDF : Byte)].length = 9 + 2 + 2) ∧
    (check1 (params .v1) [0xFF, 0xFF, 0x05, 0x04, 0x00, 0x00, 0x02, 0xF6] = 0 ∧
      [0xFF, 0xFF, 0x05, 0x04, 0x00, 0x00, 0x02, (0xF6 : Byte)].length = 6 + 2) ∧
    ([0x1E, 0x00] : List Byte).length < 3 := by decide +kernel

theorem witness_StatusFrameDataIsExtracted :
    (start .v2).params.Wf ∧ (start .v1).params.Wf ∧
    ((⟨0x1E, 1, 255⟩ : Descriptor).length ≠ 0 ∧ (aa 255).length = (255 : Byte).toNat ∧ (start .v2).pver = .v2 ∧
      (start .v2).params.v2ErrOffset = 8 ∧ (start .v2).params.v2DataOffset = 9 ∧ (0x7F : Byte).getLsbD 7 = false) ∧
    ((⟨0x1E, 0, 253⟩ : Descriptor).length ≠ 0 ∧ (aa 253).length = (253 : Byte).toNat ∧ (start .v1).pver = .v1 ∧
      (⟨0x1E, 0, 253⟩ : Descriptor).addressHigh = 0 ∧ (aa 253).length ≤ 253) :=
  ⟨params_wf _, params_wf _, by decide +kernel⟩

theorem witness_RequestsAreNeverTooShort :
    (start .v2).params.Wf ∧ (requestDescriptor (start .v2).params (.regSetid 5 1)).isSome ∧
    (start .v2).envState ≠ .pending ∧ ∃ t, exec (.regSetid 5 1) (start .v2) = .next t ∧ t.envState = .pending :=
  ⟨params_wf _, rfl, by decide, next_with (fun t => t.envState = .pending) (by decide +kernel)⟩

theorem witness_RequestFramesRoundTrip :
    ((start .v2).params.Wf ∧ requestDescriptor (start .v2).params (.regRd ⟨0x1E, 0, 2⟩) = some ⟨0x1E, 0, 2⟩ ∧
      (start .v2).envState ≠ .pending ∧ (start .v2).pver = .v2 ∧
      ∃ t, exec (.regRd ⟨0x1E, 0, 2⟩) (start .v2) = .next t ∧ t.envState = .pending) ∧
    ((start .v1).params.Wf ∧ requestDescriptor (start .v1).params (.regSetid 5 0) = some ⟨3, 0, 1⟩ ∧
      (start .v1).envState ≠ .pending ∧ (start .v1).pver = .v1 ∧
      ∃ t, exec (.regSetid 5 0) (start .v1) = .next t ∧ t.envState = .pending) :=
  ⟨⟨params_wf _, rfl, by decide, rfl, next_with (fun t => t.envState = .pending) (by decide +kernel)⟩,
    params_wf _, rfl, by decide, rfl, next_with (fun t => t.envState = .pending) (by decide +kernel)⟩

theorem witness_EveryOperationAnswersOnce :
    (∃ t, exec .pverGet (start .v2) = .next t ∧ t.outbox = [[0x00, 0x02]]) ∧
    (∃ t, exec .envRead (start .v2) = .next t ∧ t.outbox = [[0x03]]) ∧
    (∃ t, exec (.regXtr ⟨0x1E, 0, 2⟩ []) (start .v2) = .next t ∧ t.outbox = [[0x07, 0x01]]) :=
  ⟨next_with (fun t => t.outbox = [[0x00, 0x02]]) (by decide +kernel),
    next_with (fun t => t.outbox = [[0x03]]) (by decide +kernel),
    next_with (fun t => t.outbox = [[0x07, 0x01]]) (by decide +kernel)⟩

theorem witness_OnlyTheListedOperationsWrite :
    (∃ t, exec (.sumByte 1) (start .v2) = .next t ∧ t.sumAcc ≠ (start .v2).sumAcc) ∧
    (∃ t, exec .crcClr (start .v2) = .next t ∧ t.crcAcc ≠ (start .v2).crcAcc) ∧
    (∃ t, exec (.pverSet 1) (start .v2) = .next t ∧ t.pver ≠ (start .v2).pver) ∧
    (∃ t, exec (.regSetid 5 1) (start .v2) = .next t ∧ t.motorId ≠ (start .v2).motorId) ∧
    (∃ t, exec .envConsume (pending .v2) = .next t ∧ t.pktSize ≠ (pending .v2).pktSize) :=
  ⟨next_with (fun t => t.sumAcc ≠ (start .v2).sumAcc) (by decide +kernel),
    next_with (fun t => t.crcAcc ≠ (start .v2).crcAcc) (by decide +kernel),
    next_with (fun t => t.pver ≠ (start .v2).pver) (by decide +kernel),
    next_with (fun t => t.motorId ≠ (start .v2).motorId) (by decide +kernel),
    next_with (fun t => t.pktSize ≠ (pending .v2).pktSize) (by decide +kernel)⟩

theorem witness_ReadsChangeNothing :
    (∃ t, exec .envRead (pending .v2) = .next t ∧ t.envState = .pending) ∧
    (∃ t, exec (.mapRd 8) (start .v2) = .next t ∧ t.outbox = [[0x05]]) ∧
    (∃ t, exec (.f2Check readRequest) (start .v2) = .next t ∧ t.outbox = [[0x00, 0x04]]) :=
  ⟨next_with (fun t => t.envState = .pending) (by decide +kernel), next_with (fun t => t.outbox = [[0x05]])
    (by decide +kernel), next_with (fun t => t.outbox = [[0x00, 0x04]]) (by decide +kernel)⟩

theorem witness_StepKeepsTheInvariant :
    (BlockInv (pending .v2) ∧ ∃ t, step (pending .v2) = .next t ∧ t.envState = .pending) ∧
    (BlockInv (start .v1) ∧ (start .v1).envState ≠ .pending ∧
      ∃ t, exec (.envNewa (aa 6)) (start .v1) = .next t ∧ t.envState = .pending) :=
  ⟨⟨pending_inv _, _, rfl, rfl⟩, start_inv _, by decide,
    next_with (fun t => t.envState = .pending) (by decide +kernel)⟩

theorem witness_NoRunEverStops :
    BlockInv ((pending .v2).setInbox [.command .transport [0x44], .reset, .command .host (0x13 :: aa 68)]) ∧
    InboxDeliverable ((pending .v2).setInbox [.command .transport [0x44], .reset, .command .host (0x13 :: aa 68)]) := by
  have h := pending_inv .v2
  exact ⟨⟨h.1, h.2, h.3, h.4, h.5, h.6, h.7, h.8⟩, (inboxDeliverable_iff _).mpr rfl⟩

end Sys2Proof.Tests
end

section
/-! Every operation that answers sends one result message (00_scope.md R10, 30_encoding.md R71). -/
namespace Sys2Proof.Machine

/-- The message of an error, by its shape (60_exceptions.md R191): a code from 1 to 6 alone, or 7 and the
check status byte. -/
theorem errMessage_code_or_status (e : Err) :
    (∃ c : Byte, 1 ≤ c.toNat ∧ c.toNat ≤ 6 ∧ errMessage e = [c]) ∨ ∃ st : Byte, errMessage e = [0x07, st] := by
  cases e with
  | invalidFrameSize => exact .inl ⟨0x01, by decide, by decide, rfl⟩
  | envelopeBusy => exact .inl ⟨0x02, by decide, by decide, rfl⟩
  | noEnvelope => exact .inl ⟨0x03, by decide, by decide, rfl⟩
  | bufferCapacity => exact .inl ⟨0x04, by decide, by decide, rfl⟩
  | badOperand => exact .inl ⟨0x05, by decide, by decide, rfl⟩
  | illegalCommand => exact .inl ⟨0x06, by decide, by decide, rfl⟩
  | badResponse st => exact .inr ⟨st, rfl⟩

/-- The two ways an operation ends (00_scope.md R10), read off its effect: `Ok(p)`, whose only trace in the
results is `[0x00] ++ p`, or a raise, which changes nothing else. -/
theorem Effect.ok_or_raised {i : Instr} {s t : State} (h : Effect i s t) :
    (∃ p, t.outbox = s.outbox ++ [0x00 :: p]) ∨ ∃ e, t = replied s (errMessage e) := by
  cases h with
  | answered p => exact .inl ⟨p, rfl⟩
  | raised e => exact .inr ⟨e, rfl⟩
  | sum v _ => exact .inl ⟨[], rfl⟩
  | crc v _ => exact .inl ⟨[], rfl⟩
  | version v b _ => exact .inl ⟨[], rfl⟩
  | consumed _ _ => exact .inl ⟨[], rfl⟩
  | built f r _ _ => exact .inl ⟨[], rfl⟩
  | renamed n ack f r _ _ _ => exact .inl ⟨[], rfl⟩

/-- Settles O54: the operation's effect says whether it ended in `Ok` or raised, and the error's message has one
of the two shapes. -/
theorem everyOperationAnswersOnce : Obligations.EveryOperationAnswersOnce := by
  intro i s t h
  rcases (effect_of_exec h).ok_or_raised with ⟨p, hp⟩ | ⟨e, rfl⟩
  · exact ⟨0x00 :: p, hp, .inl ⟨p, rfl⟩⟩
  · exact ⟨errMessage e, replied_outbox _ _, .inr ⟨rfl, errMessage_code_or_status e⟩⟩

end Sys2Proof.Machine
end

section
/-! What an operation does to the envelope slot, register by register who writes it, and the invariant of
10_state.md R38. -/
namespace Sys2Proof.Machine

/-! ### The envelope slot -/

/-- `t` holds the same envelope as `s`: the life-cycle state, both sizes and the frame buffer (10_state.md R30
to R33). -/
structure SameEnvelope (s t : State) : Prop where
  envState : t.envState = s.envState
  pktSize : t.pktSize = s.pktSize
  respSize : t.respSize = s.respSize
  buf : t.buf = s.buf

/-- An operation leaves the envelope alone, or it is `ENV.CONSUME` and releases it, or it is one of the seven
builders and `env_build` opened it, with the minimum size of the version the operation checks against (10_state.md
R20, 43_packet_envelope.md R136, R137). -/
theorem Effect.envelope_cases {i : Instr} {s t : State} (h : Effect i s t) :
    SameEnvelope s t ∨
    (i = .envConsume ∧ SameEnvelope s.closeEnvelope t) ∨
    ∃ f r, (builds i = true ∨ ∃ n a, i = .regSetid n a) ∧
      envBuild (checkedVersion i s.pver) f r s = .ok (s.openEnvelope f r) ∧ SameEnvelope (s.openEnvelope f r) t := by
  cases h with
  | consumed hi _ => exact .inr (.inl ⟨hi, rfl, rfl, rfl, rfl⟩)
  | built f r hi hb => exact .inr (.inr ⟨f, r, .inl hi, hb, rfl, rfl, rfl, rfl⟩)
  | renamed n a f r hi _ hb =>
    subst hi
    exact .inr (.inr ⟨f, r, .inr ⟨n, a, rfl⟩, hb, rfl, rfl, rfl, rfl⟩)
  | _ => exact .inl ⟨rfl, rfl, rfl, rfl⟩

/-- The seven builders by name. -/
theorem builder_cases {i : Instr} (h : builds i = true ∨ ∃ n a, i = .regSetid n a) :
    (∃ b, i = .envNewa b) ∨ (∃ r b, i = .envNewb r b) ∨ (∃ r b, i = .f1Frame r b) ∨
    (∃ a c r b, i = .f2Frame a c r b) ∨ (∃ d, i = .regRd d) ∨ (∃ d a b, i = .regWr d a b) ∨
    ∃ n a, i = .regSetid n a := by
  cases i with
  | envNewa b => exact .inl ⟨b, rfl⟩
  | envNewb r b => exact .inr (.inl ⟨r, b, rfl⟩)
  | f1Frame r b => exact .inr (.inr (.inl ⟨r, b, rfl⟩))
  | f2Frame a c r b => exact .inr (.inr (.inr (.inl ⟨a, c, r, b, rfl⟩)))
  | regRd d => exact .inr (.inr (.inr (.inr (.inl ⟨d, rfl⟩))))
  | regWr d a b => exact .inr (.inr (.inr (.inr (.inr (.inl ⟨d, a, b, rfl⟩)))))
  | regSetid n a => exact .inr (.inr (.inr (.inr (.inr (.inr ⟨n, a, rfl⟩)))))
  | _ => simp [builds] at h

/-- Settles O39: a Pending slot makes `env_build` raise `EnvelopeBusy`, so of the three things an operation can do
to the envelope only leaving it alone remains. -/
theorem pendingEnvelopeSurvives : Obligations.PendingEnvelopeSurvives := by
  intro i s t hpending hi h
  rcases (effect_of_exec h).envelope_cases with hsame | ⟨hconsume, -⟩ | ⟨f, r, -, hb, -⟩
  · exact ⟨hsame.envState.trans hpending, hsame.pktSize, hsame.respSize, fun a => by rw [hsame.buf]⟩
  · exact absurd hconsume hi
  · obtain ⟨-, -, hfree, -⟩ := (envBuild_eq_ok _ _ _ _ _).mp hb
    exact absurd hpending hfree

/-! ### The other registers and their writers (10_state.md R20) -/

theorem Effect.sumAcc_writer {i : Instr} {s t : State} (h : Effect i s t) (hne : t.sumAcc ≠ s.sumAcc) :
    i = .sumClr ∨ ∃ b, i = .sumByte b := by
  cases h with
  | sum _ hi => exact hi
  | _ => exact absurd rfl hne

theorem Effect.crcAcc_writer {i : Instr} {s t : State} (h : Effect i s t) (hne : t.crcAcc ≠ s.crcAcc) :
    i = .crcClr ∨ ∃ b, i = .crcByte b := by
  cases h with
  | crc _ hi => exact hi
  | _ => exact absurd rfl hne

theorem Effect.pver_writer {i : Instr} {s t : State} (h : Effect i s t) (hne : t.pver ≠ s.pver) :
    ∃ v, i = .pverSet v := by
  cases h with
  | version _ b hi => exact ⟨b, hi⟩
  | _ => exact absurd rfl hne

/-- `MOTOR_ID` stays, or `REG.SETID` gave it a new identifier within `ID_MAX` (45_framer_register.md R174). -/
theorem Effect.motorId_cases {i : Instr} {s t : State} (h : Effect i s t) :
    t.motorId = s.motorId ∨ ∃ n a, i = .regSetid n a ∧ t.motorId = n ∧ n.toNat ≤ 252 := by
  cases h with
  | renamed n a _ _ hi hn _ => exact .inr ⟨n, a, hi, rfl, hn⟩
  | _ => exact .inl rfl

theorem Effect.motorId_writer {i : Instr} {s t : State} (h : Effect i s t) (hne : t.motorId ≠ s.motorId) :
    ∃ n a, i = .regSetid n a := by
  rcases h.motorId_cases with heq | ⟨n, a, hi, -, -⟩
  · exact absurd heq hne
  · exact ⟨n, a, hi⟩

theorem Effect.envelope_writer {i : Instr} {s t : State} (h : Effect i s t) (hne : ¬ SameEnvelope s t) :
    i = .envConsume ∨ builds i = true ∨ ∃ n a, i = .regSetid n a := by
  rcases h.envelope_cases with hsame | ⟨hi, -⟩ | ⟨_, _, hi, -, -⟩
  · exact absurd hsame hne
  · exact .inl hi
  · exact .inr hi

/-- Settles O55: each register's writers are read off the operation's effect. -/
theorem onlyTheListedOperationsWrite : Obligations.OnlyTheListedOperationsWrite := by
  intro i s t h
  have heff := effect_of_exec h
  refine ⟨heff.sumAcc_writer, heff.crcAcc_writer, heff.pver_writer, heff.motorId_writer, exec_params h,
    exec_inbox h, exec_resets h, fun hchanged => ?_⟩
  have hne : ¬ SameEnvelope s t := by
    rintro ⟨henv, hpkt, hresp, hbuf⟩
    simp [henv, hpkt, hresp, hbuf] at hchanged
  exact (heff.envelope_writer hne).imp_right builder_cases

/-! ### The state after reset -/

/-- A register of the OPEN map is at least one byte long (00_scope.md R5). -/
theorem configuredDescriptor_length_pos (k : Nat) : 1 ≤ (configuredDescriptor k).length.toNat := by
  have := (Config.regmapEntry k).2.2.isLt
  simp only [configuredDescriptor, BitVec.toNat_ofNat]
  omega

theorem configured_regmap (k : Fin 8) : configured.regmap[k] = configuredDescriptor k := by
  fin_cases k <;> rfl

/-- The configured parameters meet their constraints, whatever the OPEN ones are (00_scope.md R5, log 10). -/
theorem configured_wf : configured.Wf where
  bufMax_ge := Nat.le_add_left _ _
  bufMax_le := by
    have := Config.bufMaxExtra.isLt
    simp only [configured]
    omega
  msgMax_ge := by simp only [configured]; omega
  regmap_length k := by rw [configured_regmap]; exact configuredDescriptor_length_pos k
  sumStart := .inl rfl
  v1MinPacket := ⟨by decide, by decide⟩
  errOffset := ⟨by decide, by decide⟩
  dataOffset := by decide

/-- `reset` gives the invariant to any parameters within their constraints (10_state.md R37, R38). -/
theorem resetWith_inv {p : Params} (hp : p.Wf) (k : Nat) : BlockInv (State.resetWith p k) where
  params_wf := hp
  pending_size h := by cases h
  idle_size _ := ⟨rfl, rfl⟩
  id_range := .inl rfl
  buf_wf := rfl
  buf_range _ h := by cases h
  buf_held h := by cases h
  buf_idle _ := rfl

/-- Settles O58. -/
theorem resetHasTheInvariant : Obligations.ResetHasTheInvariant := resetWith_inv configured_wf 0

/-- Settles O11: each clause is a field of `State.resetWith`, the table one of `configured`. -/
theorem resetStateIsAsTheSpecSays : Obligations.ResetStateIsAsTheSpecSays :=
  ⟨rfl, rfl, rfl, memGet_nil, rfl, rfl, rfl, rfl, rfl⟩

/-! ### The invariant of R38 -/

/-- The invariant speaks of the parameters, the envelope and `MOTOR_ID` only. -/
theorem BlockInv.of_sameEnvelope {s t : State} (h : BlockInv s) (he : SameEnvelope s t) (hp : t.params = s.params)
    (hid : t.motorId = s.motorId ∨ t.motorId.toNat ≤ 252) : BlockInv t := by
  obtain ⟨henv, hpkt, hresp, hbuf⟩ := he
  refine ⟨?_, ?_, ?_, ?_, ?_, ?_, ?_, ?_⟩ <;> simp only [henv, hpkt, hresp, hbuf, hp]
  · exact h.params_wf
  · exact h.pending_size
  · exact h.idle_size
  · rcases hid with heq | hle
    · rw [heq]; exact h.id_range
    · exact .inr hle
  · exact h.buf_wf
  · exact h.buf_range
  · exact h.buf_held
  · exact h.buf_idle

theorem BlockInv.setInbox {s : State} (h : BlockInv s) (rest : List Input) : BlockInv (s.setInbox rest) :=
  h.of_sameEnvelope ⟨rfl, rfl, rfl, rfl⟩ rfl (.inl rfl)

theorem BlockInv.after_reply {s : State} (h : BlockInv s) (m : List Byte) : BlockInv (replied s m) :=
  h.of_sameEnvelope ⟨rfl, rfl, rfl, rfl⟩ rfl (.inl rfl)

theorem BlockInv.resetEvent {s : State} (h : BlockInv s) : BlockInv s.resetEvent :=
  (resetWith_inv h.params_wf s.resets).of_sameEnvelope ⟨rfl, rfl, rfl, rfl⟩ rfl (.inl rfl)

/-- Releasing the envelope leaves no byte and no size behind (43_packet_envelope.md R140). -/
theorem BlockInv.closeEnvelope {s : State} (h : BlockInv s) : BlockInv s.closeEnvelope where
  params_wf := h.params_wf
  pending_size hp := by cases hp
  idle_size _ := ⟨rfl, rfl⟩
  id_range := h.id_range
  buf_wf := wf_closeEnvelope s
  buf_range _ hs := by cases hs
  buf_held hp := by cases hp
  buf_idle _ := rfl

/-- No version accepts an empty frame. -/
theorem minpkt_pos {p : Params} (hp : p.Wf) (v : Version) : 1 ≤ minpkt p v := by
  cases v with
  | v1 => exact hp.v1MinPacket.1
  | v2 => simp

/-- A frame within the buffer has its length in `PKT_SIZE`, no bit of it lost. -/
theorem pktSize_openEnvelope_toNat {s : State} (hp : s.params.Wf) (f : List Byte) (r : U16)
    (hf : f.length ≤ s.params.bufMax) : (s.openEnvelope f r).pktSize.toNat = f.length := by
  have := hp.bufMax_le
  simp only [State.openEnvelope_pktSize, BitVec.toNat_ofNat]
  omega

/-- The bytes of an envelope opened on an empty buffer are those of the frame and no others. -/
theorem memGet_openEnvelope {s : State} (hbuf : s.buf = []) (f : List Byte) (r : U16) (a : Nat) :
    memGet (s.openEnvelope f r).buf a = f[a]? := by
  rw [State.openEnvelope_buf, hbuf, memGet_memWrite]
  by_cases ha : a < f.length
  · simp [ha]
  · simp [ha]

/-- Opening an envelope that fits the buffer, on a slot that is free, keeps the invariant: a free slot keeps no
byte, so the buffer then holds the frame alone. -/
theorem BlockInv.openEnvelope {s : State} (h : BlockInv s) (f : List Byte) (r : U16) (hmin : 1 ≤ f.length)
    (hmax : f.length ≤ s.params.bufMax) (hfree : s.envState ≠ .pending) : BlockInv (s.openEnvelope f r) := by
  have hsize := pktSize_openEnvelope_toNat h.params_wf f r hmax
  have hget := memGet_openEnvelope (h.buf_idle hfree) f r
  have hsome : ∀ a, (memGet (s.openEnvelope f r).buf a).isSome ↔ a < f.length := fun a => by rw [hget]; simp
  exact {
    params_wf := h.params_wf
    pending_size := fun _ => by rw [hsize]; exact ⟨hmin, hmax⟩
    idle_size := fun hn => absurd rfl hn
    id_range := h.id_range
    buf_wf := wf_openEnvelope s f r h.buf_wf
    buf_range := fun a ha => Nat.lt_of_lt_of_le ((hsome a).mp ha) hmax
    buf_held := fun _ a ha => (hsome a).mpr (hsize ▸ ha)
    buf_idle := fun hn => absurd rfl hn }

/-- Every operation keeps the invariant: whatever envelope it leaves has it, and `MOTOR_ID` stays or is within
`ID_MAX`. -/
theorem BlockInv.after_exec {i : Instr} {s t : State} (h : BlockInv s) (hexec : exec i s = .next t) : BlockInv t := by
  have heff := effect_of_exec hexec
  have hparams := exec_params hexec
  have hid : t.motorId = s.motorId ∨ t.motorId.toNat ≤ 252 := by
    rcases heff.motorId_cases with heq | ⟨n, _, -, heq, hn⟩
    · exact .inl heq
    · exact .inr (heq ▸ hn)
  rcases heff.envelope_cases with hsame | ⟨-, hclosed⟩ | ⟨f, r, -, hb, hopen⟩
  · exact h.of_sameEnvelope hsame hparams hid
  · exact h.closeEnvelope.of_sameEnvelope hclosed hparams hid
  · obtain ⟨hmin, hmax, hfree, -⟩ := (envBuild_eq_ok _ _ _ _ _).mp hb
    have hpos := (minpkt_pos h.params_wf _).trans hmin
    exact (h.openEnvelope f r hpos hmax hfree).of_sameEnvelope hopen hparams hid

/-- Every step keeps the invariant and the parameters: the idle step, `Reset`, an operation, and the answer to a
message that decodes to none. -/
theorem BlockInv.after_step {s t : State} (h : BlockInv s) (hstep : step s = .next t) :
    BlockInv t ∧ t.params = s.params := by
  rcases step_cases hstep with
    ⟨-, rfl⟩ | ⟨rest, -, rfl⟩ | ⟨_, _, rest, _, -, -, hexec⟩ | ⟨_, _, rest, _, -, -, rfl⟩
  · exact ⟨h, rfl⟩
  · exact ⟨(h.setInbox rest).resetEvent, rfl⟩
  · exact ⟨(h.setInbox rest).after_exec hexec, (exec_params hexec).trans (State.setInbox_params s rest)⟩
  · exact ⟨(h.setInbox rest).after_reply _, rfl⟩

/-- R38 (f): an operation that makes the slot Pending passed `env_build`'s size test, in the version it checks its
frame against. -/
theorem minpkt_le_pktSize_of_opened {i : Instr} {s t : State} (h : BlockInv s) (hexec : exec i s = .next t)
    (hfree : s.envState ≠ .pending) (hpending : t.envState = .pending) :
    minpkt s.params (checkedVersion i s.pver) ≤ t.pktSize.toNat := by
  rcases (effect_of_exec hexec).envelope_cases with hsame | ⟨-, hclosed⟩ | ⟨f, r, -, hb, hopen⟩
  · exact absurd (hsame.envState.symm.trans hpending) hfree
  · have := hclosed.envState.symm.trans hpending
    simp at this
  · obtain ⟨hmin, hmax, -, -⟩ := (envBuild_eq_ok _ _ _ _ _).mp hb
    rw [hopen.pktSize, pktSize_openEnvelope_toNat h.params_wf f r hmax]
    exact hmin

/-- Settles O57: the step lemma of the invariant, and the size test of the operation that opened the envelope. -/
theorem stepKeepsTheInvariant : Obligations.StepKeepsTheInvariant :=
  ⟨fun _ _ h hstep => h.after_step hstep, fun _ _ _ h hexec hfree hpending =>
    minpkt_le_pktSize_of_opened h hexec hfree hpending⟩

end Sys2Proof.Machine
end

section
/-! Reads, one-shot computations and checks (20_memory.md R55): what they answer does not depend on the results
already sent, which is the only thing an answer changes. -/
namespace Sys2Proof.Machine

/-- The same registers after other results have been sent. -/
def State.withOutbox (s : State) (sent : List (List Byte)) : State := { s with outbox := sent }

@[simp] theorem State.withOutbox_params (s : State) (l : List (List Byte)) : (s.withOutbox l).params = s.params := rfl
@[simp] theorem State.withOutbox_envState (s : State) (l : List (List Byte)) :
    (s.withOutbox l).envState = s.envState := rfl
@[simp] theorem State.withOutbox_pktSize (s : State) (l : List (List Byte)) :
    (s.withOutbox l).pktSize = s.pktSize := rfl
@[simp] theorem State.withOutbox_respSize (s : State) (l : List (List Byte)) :
    (s.withOutbox l).respSize = s.respSize := rfl

@[simp] theorem memRead_withOutbox (s : State) (l : List (List Byte)) (a n : Nat) :
    memRead (s.withOutbox l) a n = memRead s a n := rfl

/-- With the registers of `s`, the operation does nothing but send `m`, whatever was sent before. -/
def OnlySends (i : Instr) (s : State) (m : List Byte) : Prop :=
  ∀ sent, exec i (s.withOutbox sent) = .next (replied (s.withOutbox sent) m)

/-- An operation that only sends a message sends it again at once: the first message is one more result sent. -/
theorem OnlySends.repeats {i : Instr} {s t : State} {m : List Byte} (hm : OnlySends i s m)
    (h : exec i s = .next t) : t = replied s m ∧ exec i t = .next (replied t m) := by
  have hfirst : exec i s = .next (replied s m) := hm s.outbox
  cases h.symm.trans hfirst
  exact ⟨rfl, hm (s.outbox ++ [m])⟩

/-- `MAP.RD` answers the descriptor, or `BadOperand` above the map (42_descriptor_and_config.md R128). -/
theorem mapRd_onlySends (k : Byte) (s : State) : ∃ m, OnlySends (.mapRd k) s m := by
  cases hk : regmapRead s.params k with
  | none => exact ⟨errMessage .badOperand, fun _ => by simp [exec, execMapRd, hk, raise_eq]⟩
  | some d =>
    exact ⟨[0x00, d.addressLow, d.addressHigh, d.length], fun _ => by simp [exec, execMapRd, hk, finish_eq]⟩

/-- `ENV.READ`, where it does not fault, answers the frame, or `NoEnvelope` (43_packet_envelope.md R143). -/
theorem envRead_onlySends {s t : State} (h : exec .envRead s = .next t) : ∃ m, OnlySends .envRead s m := by
  by_cases hp : s.envState = .pending
  · cases hr : memRead s 0 s.pktSize.toNat with
    | ok bytes =>
      exact ⟨0x00 :: (le2 s.respSize ++ bytes), fun _ => by simp [exec, execEnvRead, hp, hr, finish_eq]⟩
    | error f => simp [exec, execEnvRead, hp, hr] at h
  · exact ⟨errMessage .noEnvelope, fun _ => by simp [exec, execEnvRead, hp, raise_eq]⟩

/-- `REG.XTR` answers the data, `BadResponse` with the check status, or `BadOperand` (45_framer_register.md
R175). -/
theorem regXtr_onlySends (d : Descriptor) (bytes : List Byte) (s : State) : ∃ m, OnlySends (.regXtr d bytes) s m := by
  by_cases hd : (validDesc d && (s.pver == .v2 || d.addressHigh == 0)) = true
  · by_cases hst : xtrStatus s.params s.pver d bytes = 0
    · exact ⟨0x00 :: slice bytes (dataOffset s.params s.pver) (dataOffset s.params s.pver + d.length.toNat),
        fun _ => (if_pos hd).trans (if_pos hst)⟩
    · exact ⟨errMessage (.badResponse (xtrStatus s.params s.pver d bytes)),
        fun _ => (if_pos hd).trans (if_neg hst)⟩
  · exact ⟨errMessage .badOperand, fun _ => if_neg hd⟩

/-- Settles O56: nine of the twelve operations always end in `Ok` of a payload read from registers and operands;
`MAP.RD`, `ENV.READ` and `REG.XTR` choose between an answer and an error, by registers and operands too. -/
theorem readsChangeNothing : Obligations.ReadsChangeNothing := by
  intro i s t hi h
  have hsends : ∃ m, OnlySends i s m := by
    rcases hi with rfl | rfl | rfl | rfl | ⟨k, rfl⟩ | rfl | rfl | ⟨b, rfl⟩ | ⟨b, rfl⟩ | ⟨b, rfl⟩ | ⟨b, rfl⟩ |
      ⟨d, b, rfl⟩
    · exact ⟨0x00 :: [~~~ s.sumAcc], fun _ => rfl⟩
    · exact ⟨0x00 :: le2 s.crcAcc, fun _ => rfl⟩
    · exact ⟨0x00 :: [versionByte s.pver], fun _ => rfl⟩
    · exact ⟨0x00 :: [s.motorId], fun _ => rfl⟩
    · exact mapRd_onlySends k s
    · exact ⟨0x00 :: ([envCode s.envState] ++ le2 s.pktSize ++ le2 s.respSize), fun _ => rfl⟩
    · exact envRead_onlySends h
    · exact ⟨0x00 :: [csum1 b], fun _ => rfl⟩
    · exact ⟨0x00 :: le2 (crc16 s.params b), fun _ => rfl⟩
    · exact ⟨0x00 :: [check1 s.params b], fun _ => rfl⟩
    · exact ⟨0x00 :: [check2 s.params b], fun _ => rfl⟩
    · exact regXtr_onlySends d b s
  obtain ⟨m, hm⟩ := hsends
  exact ⟨m, hm.repeats h⟩

end Sys2Proof.Machine
end

section
/-! The command messages and their operations (30_encoding.md): per format of R72 to R76 and R79 which operand
bytes it accepts (R90), per opcode its format (R86), so what every message decodes to. -/
namespace Sys2Proof.Machine

/-! ### The formats: the operand bytes each accepts, and the lengths it does not -/

theorem decodeN_eq_ok (op : Byte) {j i : Instr} {rest : List Byte} :
    decodeN op j rest = .ok i ↔ rest = [] ∧ i = j := by
  rcases rest with _ | ⟨_, _⟩ <;> simp [decodeN, eq_comm]

theorem decodeB_eq_ok (op : Byte) {f : Byte → Instr} {i : Instr} {rest : List Byte} :
    decodeB op f rest = .ok i ↔ ∃ b, rest = [b] ∧ i = f b := by
  rcases rest with _ | ⟨_, _ | ⟨_, _⟩⟩ <;> simp [decodeB, eq_comm]

/-- The u16 operand is in the message low byte first (R81), and every two bytes are such a u16. -/
theorem decodeSW_eq_ok (op : Byte) {f : U16 → List Byte → Instr} {i : Instr} {rest : List Byte} :
    decodeSW op f rest = .ok i ↔ ∃ r s, rest = lo8 r :: hi8 r :: s ∧ i = f r s := by
  constructor
  · intro h
    unfold decodeSW at h
    split at h
    next a b s => cases h; exact ⟨u16le a b, s, by rw [lo8_u16le, hi8_u16le], rfl⟩
    next => cases h
  · rintro ⟨r, s, rfl, rfl⟩
    simp [decodeSW, u16le_lo8_hi8]

/-- Format F2 is format SW's operand after two bytes (R75). -/
theorem decodeF2_eq_ok (op : Byte) {i : Instr} {rest : List Byte} :
    decodeF2 op rest = .ok i ↔ ∃ id instr r ps,
      rest = id :: instr :: lo8 r :: hi8 r :: ps ∧ i = .f2Frame id instr r ps := by
  constructor
  · intro h
    unfold decodeF2 at h
    split at h
    next id instr a b ps => cases h; exact ⟨id, instr, u16le a b, ps, by rw [lo8_u16le, hi8_u16le], rfl⟩
    next => cases h
  · rintro ⟨id, instr, r, ps, rfl, rfl⟩
    simp [decodeF2, u16le_lo8_hi8]

theorem decodeD_eq_ok (op : Byte) {i : Instr} {rest : List Byte} :
    decodeD op rest = .ok i ↔ ∃ d : Descriptor, rest = [d.addressLow, d.addressHigh, d.length] ∧ i = .regRd d := by
  constructor
  · intro h
    unfold decodeD at h
    split at h
    next a b l => cases h; exact ⟨⟨a, b, l⟩, rfl, rfl⟩
    next => cases h
  · rintro ⟨d, rfl, rfl⟩
    rfl

/-- The data are exactly as many as the descriptor says (R76). -/
theorem decodeDW_eq_ok (op : Byte) {i : Instr} {rest : List Byte} :
    decodeDW op rest = .ok i ↔ ∃ (d : Descriptor) (ack : Byte) (data : List Byte),
      rest = d.addressLow :: d.addressHigh :: d.length :: ack :: data ∧ data.length = d.length.toNat ∧
        i = .regWr d ack data := by
  constructor
  · intro h
    unfold decodeDW at h
    split at h
    next a b l ack data =>
      split at h
      next hlen => cases h; exact ⟨⟨a, b, l⟩, ack, data, rfl, hlen, rfl⟩
      next => cases h
    next => cases h
  · rintro ⟨d, ack, data, rfl, hlen, rfl⟩
    exact if_pos hlen

theorem decodeI_eq_ok (op : Byte) {i : Instr} {rest : List Byte} :
    decodeI op rest = .ok i ↔ ∃ newid ack, rest = [newid, ack] ∧ i = .regSetid newid ack := by
  constructor
  · intro h
    unfold decodeI at h
    split at h
    next newid ack => cases h; exact ⟨newid, ack, rfl, rfl⟩
    next => cases h
  · rintro ⟨newid, ack, rfl, rfl⟩
    rfl

theorem decodeDX_eq_ok (op : Byte) {i : Instr} {rest : List Byte} :
    decodeDX op rest = .ok i ↔ ∃ (d : Descriptor) (s : List Byte),
      rest = d.addressLow :: d.addressHigh :: d.length :: s ∧ i = .regXtr d s := by
  constructor
  · intro h
    unfold decodeDX at h
    split at h
    next a b l s => cases h; exact ⟨⟨a, b, l⟩, s, rfl, rfl⟩
    next => cases h
  · rintro ⟨d, s, rfl, rfl⟩
    rfl

theorem decodeN_malformed (op : Byte) (i : Instr) :
    ∀ {rest : List Byte}, rest.length ≠ 0 → decodeN op i rest = .error (.malformedLength op)
  | [], h => absurd rfl h
  | _ :: _, _ => rfl

theorem decodeB_malformed (op : Byte) (f : Byte → Instr) :
    ∀ {rest : List Byte}, rest.length ≠ 1 → decodeB op f rest = .error (.malformedLength op)
  | [], _ => rfl
  | [_], h => absurd rfl h
  | _ :: _ :: _, _ => rfl

theorem decodeSW_malformed (op : Byte) (f : U16 → List Byte → Instr) :
    ∀ {rest : List Byte}, rest.length < 2 → decodeSW op f rest = .error (.malformedLength op)
  | [], _ => rfl
  | [_], _ => rfl
  | _ :: _ :: _, h => absurd h (by simp)

theorem decodeF2_malformed (op : Byte) :
    ∀ {rest : List Byte}, rest.length < 4 → decodeF2 op rest = .error (.malformedLength op)
  | [], _ => rfl
  | [_], _ => rfl
  | [_, _], _ => rfl
  | [_, _, _], _ => rfl
  | _ :: _ :: _ :: _ :: _, h => absurd h (by simp)

theorem decodeD_malformed (op : Byte) :
    ∀ {rest : List Byte}, rest.length ≠ 3 → decodeD op rest = .error (.malformedLength op)
  | [], _ => rfl
  | [_], _ => rfl
  | [_, _], _ => rfl
  | [_, _, _], h => absurd rfl h
  | _ :: _ :: _ :: _ :: _, _ => rfl

/-- Byte 2 of the operands is the descriptor's length (R76). -/
theorem decodeDW_malformed (op : Byte) :
    ∀ {rest : List Byte}, rest.length < 4 ∨ rest.length ≠ 4 + (byteAt rest 2).toNat →
      decodeDW op rest = .error (.malformedLength op)
  | [], _ => rfl
  | [_], _ => rfl
  | [_, _], _ => rfl
  | [_, _, _], _ => rfl
  | _ :: _ :: len :: _ :: data, h => if_neg fun hdata : data.length = len.toNat => by
      simp [byteAt, hdata] at h
      omega

theorem decodeI_malformed (op : Byte) :
    ∀ {rest : List Byte}, rest.length ≠ 2 → decodeI op rest = .error (.malformedLength op)
  | [], _ => rfl
  | [_], _ => rfl
  | [_, _], h => absurd rfl h
  | _ :: _ :: _ :: _, _ => rfl

theorem decodeDX_malformed (op : Byte) :
    ∀ {rest : List Byte}, rest.length < 3 → decodeDX op rest = .error (.malformedLength op)
  | [], _ => rfl
  | [_], _ => rfl
  | [_, _], _ => rfl
  | _ :: _ :: _ :: _, h => absurd h (by simp)

/-! ### The opcode map: the format of each opcode -/

/-- `m` is the message of `i`, and `i` has one. -/
structure Encodes (i : Instr) (m : List Byte) : Prop where
  encode_eq : encode i = m
  wf : i.wf = true

/-- The opcodes of format N (R86). -/
def opcodesN : List Byte := [0x10, 0x12, 0x20, 0x22, 0x31, 0x32, 0x42, 0x43, 0x44]
/-- The opcodes of format B (R86). -/
def opcodesB : List Byte := [0x11, 0x21, 0x30, 0x33]
/-- The opcodes of format SW (R86). -/
def opcodesSW : List Byte := [0x41, 0x50]
/-- The opcodes of format S (R86). -/
def opcodesS : List Byte := [0x13, 0x23, 0x40, 0x52, 0x53]

/-- The seven ranges of opcodes that are no operation (R89). -/
abbrev Unlisted (op : Byte) : Prop :=
  op.toNat ≤ 0x0F ∨ (0x14 ≤ op.toNat ∧ op.toNat ≤ 0x1F) ∨ (0x24 ≤ op.toNat ∧ op.toNat ≤ 0x2F) ∨
    (0x34 ≤ op.toNat ∧ op.toNat ≤ 0x3F) ∨ (0x45 ≤ op.toNat ∧ op.toNat ≤ 0x4F) ∨
    (0x54 ≤ op.toNat ∧ op.toNat ≤ 0x5F) ∨ 0x64 ≤ op.toNat

/-- Every opcode has a row in R86, under its format, or stands in a range of R89. -/
theorem opcode_cases (op : Byte) :
    op ∈ opcodesN ∨ op ∈ opcodesB ∨ op ∈ opcodesSW ∨ op ∈ opcodesS ∨
    op = 0x51 ∨ op = 0x60 ∨ op = 0x61 ∨ op = 0x62 ∨ op = 0x63 ∨ Unlisted op := by
  simp only [opcodesN, opcodesB, opcodesSW, opcodesS, List.mem_cons, List.not_mem_nil, or_false]
  bv_omega

theorem decode_opcodesN {op : Byte} (hop : op ∈ opcodesN) :
    ∃ i, Encodes i [op] ∧ ∀ rest, decode (op :: rest) = decodeN op i rest := by
  simp only [opcodesN, List.mem_cons, List.not_mem_nil, or_false] at hop
  rcases hop with rfl | rfl | rfl | rfl | rfl | rfl | rfl | rfl | rfl
  · exact ⟨.sumClr, ⟨rfl, rfl⟩, fun _ => rfl⟩
  · exact ⟨.sumGet, ⟨rfl, rfl⟩, fun _ => rfl⟩
  · exact ⟨.crcClr, ⟨rfl, rfl⟩, fun _ => rfl⟩
  · exact ⟨.crcGet, ⟨rfl, rfl⟩, fun _ => rfl⟩
  · exact ⟨.pverGet, ⟨rfl, rfl⟩, fun _ => rfl⟩
  · exact ⟨.idGet, ⟨rfl, rfl⟩, fun _ => rfl⟩
  · exact ⟨.envConsume, ⟨rfl, rfl⟩, fun _ => rfl⟩
  · exact ⟨.envStat, ⟨rfl, rfl⟩, fun _ => rfl⟩
  · exact ⟨.envRead, ⟨rfl, rfl⟩, fun _ => rfl⟩

theorem decode_opcodesB {op : Byte} (hop : op ∈ opcodesB) :
    ∃ f : Byte → Instr, (∀ b, Encodes (f b) [op, b]) ∧ ∀ rest, decode (op :: rest) = decodeB op f rest := by
  simp only [opcodesB, List.mem_cons, List.not_mem_nil, or_false] at hop
  rcases hop with rfl | rfl | rfl | rfl
  · exact ⟨.sumByte, fun _ => ⟨rfl, rfl⟩, fun _ => rfl⟩
  · exact ⟨.crcByte, fun _ => ⟨rfl, rfl⟩, fun _ => rfl⟩
  · exact ⟨.pverSet, fun _ => ⟨rfl, rfl⟩, fun _ => rfl⟩
  · exact ⟨.mapRd, fun _ => ⟨rfl, rfl⟩, fun _ => rfl⟩

theorem decode_opcodesSW {op : Byte} (hop : op ∈ opcodesSW) :
    ∃ f : U16 → List Byte → Instr, (∀ r s, Encodes (f r s) (op :: lo8 r :: hi8 r :: s)) ∧
      ∀ rest, decode (op :: rest) = decodeSW op f rest := by
  simp only [opcodesSW, List.mem_cons, List.not_mem_nil, or_false] at hop
  rcases hop with rfl | rfl
  · exact ⟨.envNewb, fun _ _ => ⟨rfl, rfl⟩, fun _ => rfl⟩
  · exact ⟨.f1Frame, fun _ _ => ⟨rfl, rfl⟩, fun _ => rfl⟩

theorem decode_opcodesS {op : Byte} (hop : op ∈ opcodesS) (rest : List Byte) :
    ∃ i, Encodes i (op :: rest) ∧ decode (op :: rest) = .ok i := by
  simp only [opcodesS, List.mem_cons, List.not_mem_nil, or_false] at hop
  rcases hop with rfl | rfl | rfl | rfl | rfl
  · exact ⟨.csum1 rest, ⟨rfl, rfl⟩, rfl⟩
  · exact ⟨.crc16 rest, ⟨rfl, rfl⟩, rfl⟩
  · exact ⟨.envNewa rest, ⟨rfl, rfl⟩, rfl⟩
  · exact ⟨.f1Check rest, ⟨rfl, rfl⟩, rfl⟩
  · exact ⟨.f2Check rest, ⟨rfl, rfl⟩, rfl⟩

theorem decode_f2Frame (rest : List Byte) : decode (0x51 :: rest) = decodeF2 0x51 rest := rfl
theorem decode_regRd (rest : List Byte) : decode (0x60 :: rest) = decodeD 0x60 rest := rfl
theorem decode_regWr (rest : List Byte) : decode (0x61 :: rest) = decodeDW 0x61 rest := rfl
theorem decode_regSetid (rest : List Byte) : decode (0x62 :: rest) = decodeI 0x62 rest := rfl
theorem decode_regXtr (rest : List Byte) : decode (0x63 :: rest) = decodeDX 0x63 rest := rfl

theorem decode_unlisted {op : Byte} (h : Unlisted op) (rest : List Byte) :
    decode (op :: rest) = .error (.unassignedOpcode op) := by
  have hne : op ∉ opcodesN ++ opcodesB ++ opcodesSW ++ opcodesS ++ [0x51, 0x60, 0x61, 0x62, 0x63] := by
    simp only [opcodesN, opcodesB, opcodesSW, opcodesS, List.cons_append, List.nil_append, List.mem_cons,
      List.not_mem_nil, or_false]
    bv_omega
  simp only [opcodesN, opcodesB, opcodesSW, opcodesS, List.cons_append, List.nil_append, List.mem_cons,
    List.not_mem_nil, or_false, not_or] at hne
  simp only [decode, decodeOp, hne, if_false]

/-! ### One message for each operation, one operation for each message -/

/-- Settles O1: in the formats with a u16 the operand is put together again from its two bytes, in format DW the
data have the length that well-formedness asks for, and every other operand is in the message as it is. -/
theorem decodeReadsEveryEncodedOperation : Obligations.DecodeReadsEveryEncodedOperation := by
  intro i hwf
  cases i with
  | envNewb resp s => exact (decodeSW_eq_ok 0x41).mpr ⟨resp, s, rfl, rfl⟩
  | f1Frame resp body => exact (decodeSW_eq_ok 0x50).mpr ⟨resp, body, rfl, rfl⟩
  | f2Frame id instr resp params => exact (decodeF2_eq_ok 0x51).mpr ⟨id, instr, resp, params, rfl, rfl⟩
  | regWr d ack data => exact (decodeDW_eq_ok 0x61).mpr ⟨d, ack, data, rfl, eq_of_beq hwf, rfl⟩
  | wireWrite => cases hwf
  | wireRead => cases hwf
  | wireStatus => cases hwf
  | _ => rfl

/-- What a message decodes to, format by format, is the operation that message encodes. -/
theorem encodes_of_decode {op : Byte} {rest : List Byte} {i : Instr} (h : decode (op :: rest) = .ok i) :
    Encodes i (op :: rest) := by
  rcases opcode_cases op with hop | hop | hop | hop | rfl | rfl | rfl | rfl | rfl | hop
  · obtain ⟨j, henc, hdec⟩ := decode_opcodesN hop
    rw [hdec] at h
    obtain ⟨rfl, rfl⟩ := (decodeN_eq_ok op).mp h
    exact henc
  · obtain ⟨f, henc, hdec⟩ := decode_opcodesB hop
    rw [hdec] at h
    obtain ⟨b, rfl, rfl⟩ := (decodeB_eq_ok op).mp h
    exact henc b
  · obtain ⟨f, henc, hdec⟩ := decode_opcodesSW hop
    rw [hdec] at h
    obtain ⟨r, s, rfl, rfl⟩ := (decodeSW_eq_ok op).mp h
    exact henc r s
  · obtain ⟨j, henc, hdec⟩ := decode_opcodesS hop rest
    cases hdec.symm.trans h
    exact henc
  · obtain ⟨id, instr, r, ps, rfl, rfl⟩ := (decodeF2_eq_ok _).mp ((decode_f2Frame rest).symm.trans h)
    exact ⟨rfl, rfl⟩
  · obtain ⟨d, rfl, rfl⟩ := (decodeD_eq_ok _).mp ((decode_regRd rest).symm.trans h)
    exact ⟨rfl, rfl⟩
  · obtain ⟨d, ack, data, rfl, hlen, rfl⟩ := (decodeDW_eq_ok _).mp ((decode_regWr rest).symm.trans h)
    exact ⟨rfl, beq_iff_eq.mpr hlen⟩
  · obtain ⟨newid, ack, rfl, rfl⟩ := (decodeI_eq_ok _).mp ((decode_regSetid rest).symm.trans h)
    exact ⟨rfl, rfl⟩
  · obtain ⟨d, s, rfl, rfl⟩ := (decodeDX_eq_ok _).mp ((decode_regXtr rest).symm.trans h)
    exact ⟨rfl, rfl⟩
  · cases (decode_unlisted hop rest).symm.trans h

/-- Settles O2: the empty sequence decodes to nothing, every other by its opcode's format. -/
theorem everyAcceptedMessageIsItsEncoding : Obligations.EveryAcceptedMessageIsItsEncoding := by
  intro m i h
  cases m with
  | nil => cases h
  | cons op rest => exact ⟨(encodes_of_decode h).encode_eq, (encodes_of_decode h).wf⟩

/-! ### The messages that are no operation -/

/-- Every opcode of R86 begins a message that is an operation: the shortest one of its format, with zeros for its
operands. -/
theorem exists_decode_of_listed {op : Byte} (h : ¬ Unlisted op) : ∃ rest i, decode (op :: rest) = .ok i := by
  rcases opcode_cases op with hop | hop | hop | hop | rfl | rfl | rfl | rfl | rfl | hop
  · obtain ⟨i, -, hdec⟩ := decode_opcodesN hop
    exact ⟨[], i, hdec []⟩
  · obtain ⟨f, -, hdec⟩ := decode_opcodesB hop
    exact ⟨[0], f 0, hdec [0]⟩
  · obtain ⟨f, -, hdec⟩ := decode_opcodesSW hop
    exact ⟨[0, 0], f 0 [], hdec [0, 0]⟩
  · obtain ⟨i, -, hdec⟩ := decode_opcodesS hop []
    exact ⟨[], i, hdec⟩
  · exact ⟨[0, 0, 0, 0], .f2Frame 0 0 0 [], rfl⟩
  · exact ⟨[0, 0, 0], .regRd ⟨0, 0, 0⟩, rfl⟩
  · exact ⟨[0, 0, 0, 0], .regWr ⟨0, 0, 0⟩ 0 [], rfl⟩
  · exact ⟨[0, 0], .regSetid 0 0, rfl⟩
  · exact ⟨[0, 0, 0], .regXtr ⟨0, 0, 0⟩ [], rfl⟩
  · exact absurd hop h

/-- Settles O3: an unlisted opcode is refused before its operands are looked at, and a listed one begins some
operation. -/
theorem unassignedOpcodesAreIllegal : Obligations.UnassignedOpcodesAreIllegal := fun _ =>
  ⟨fun hop rest => ⟨decode_unlisted hop rest, answer_error (decode_unlisted hop rest)⟩, exists_decode_of_listed⟩

/-- A message refused as malformed, with the answer to it (R90). -/
theorem malformed_illegal {op : Byte} {rest : List Byte} (h : decode (op :: rest) = .error (.malformedLength op)) :
    decode (op :: rest) = .error (.malformedLength op) ∧
      ∀ s : State, answer (op :: rest) s = .next (replied s [0x06]) :=
  ⟨h, answer_error h⟩

/-- Settles O4: format by format, with lengths counted from the byte after the opcode. -/
theorem misfitLengthsAreIllegal : Obligations.MisfitLengthsAreIllegal := by
  intro op rest
  have hlen : (op :: rest).length = rest.length + 1 := List.length_cons
  refine ⟨fun hop h => ?N, fun hop h => ?B, fun hop h => ?SW, ?F2, ?D, ?DW, ?I, ?DX, fun hop => ?S⟩
  case N =>
    obtain ⟨i, -, hdec⟩ := decode_opcodesN hop
    exact malformed_illegal ((hdec rest).trans (decodeN_malformed op i (by omega)))
  case B =>
    obtain ⟨f, -, hdec⟩ := decode_opcodesB hop
    exact malformed_illegal ((hdec rest).trans (decodeB_malformed op f (by omega)))
  case SW =>
    obtain ⟨f, -, hdec⟩ := decode_opcodesSW hop
    exact malformed_illegal ((hdec rest).trans (decodeSW_malformed op f (by omega)))
  case F2 =>
    rintro rfl h
    exact malformed_illegal ((decode_f2Frame rest).trans (decodeF2_malformed _ (by omega)))
  case D =>
    rintro rfl h
    exact malformed_illegal ((decode_regRd rest).trans (decodeD_malformed _ (by omega)))
  case DW =>
    rintro rfl h
    have hbyte : byteAt (0x61 :: rest) 3 = byteAt rest 2 := rfl
    rw [hbyte] at h
    exact malformed_illegal ((decode_regWr rest).trans (decodeDW_malformed _ (by omega)))
  case I =>
    rintro rfl h
    exact malformed_illegal ((decode_regSetid rest).trans (decodeI_malformed _ (by omega)))
  case DX =>
    rintro rfl h
    exact malformed_illegal ((decode_regXtr rest).trans (decodeDX_malformed _ (by omega)))
  case S =>
    obtain ⟨i, -, hdec⟩ := decode_opcodesS hop rest
    exact ⟨i, hdec⟩

/-- Settles O6: the three codes are unlisted opcodes, and `exec` raises `IllegalCommand` for their rows (log 8). -/
theorem wireCodesAreNoCommands : Obligations.WireCodesAreNoCommands := by
  refine ⟨rfl, rfl, rfl, fun b hwrite hread hstatus => by
    simp only [decodeWire, hwrite, hread, hstatus, if_false], ?_⟩
  rintro i s (rfl | rfl | rfl)
  · exact ⟨raise_eq .illegalCommand s, decode_unlisted (by decide : Unlisted 0x03)⟩
  · exact ⟨raise_eq .illegalCommand s, decode_unlisted (by decide : Unlisted 0x04)⟩
  · exact ⟨raise_eq .illegalCommand s, decode_unlisted (by decide : Unlisted 0x55)⟩

/-- Settles O5: each message is read by the opcode map and its format. -/
theorem writtenOutMessagesDecode : Obligations.WrittenOutMessagesDecode :=
  ⟨rfl, rfl, rfl, rfl, rfl, rfl, rfl, rfl⟩

/-! ### Steps on a message, and the term no message encodes -/

/-- Settles O7. -/
theorem stepRunsTheDecodedOperation : Obligations.StepRunsTheDecodedOperation :=
  ⟨fun _ _ _ _ _ hinbox hmin hmax hdec => (step_command hinbox hmin hmax).trans (answer_ok hdec _),
    fun _ hinbox => step_idle hinbox⟩

/-- Settles O8. -/
theorem stepAnswersIllegalCommand : Obligations.StepAnswersIllegalCommand :=
  fun _ _ _ _ _ hinbox hmin hmax hdec => (step_command hinbox hmin hmax).trans (answer_error hdec _)

/-- Settles O48: `execRegWr` judges the number of data bytes before any operand value (log 15). -/
theorem regWrOfWrongLengthIsIllegal : Obligations.RegWrOfWrongLengthIsIllegal := fun s _ _ _ hlen =>
  (if_pos hlen).trans (raise_eq .illegalCommand s)

end Sys2Proof.Machine
end

section
/-! Progress: in a state with the invariant every operation answers, so every step with a deliverable input does; and
the inputs a run takes one after another, with one result for each command. -/
namespace Sys2Proof.Machine

/-! ### Every operation answers -/

/-- The outcome is a next state. -/
def Answers (r : StepResult) : Prop := ∃ t, r = .next t

theorem Answers.ite {c : Prop} [Decidable c] {a b : StepResult} (ha : Answers a) (hb : Answers b) :
    Answers (if c then a else b) := by
  split
  · exact ha
  · exact hb

theorem finish_answers (p : List Byte) (s : State) : Answers (finish p s) := ⟨_, rfl⟩

theorem raise_answers (e : Err) (s : State) : Answers (raise e s) := ⟨_, rfl⟩

theorem finishOr_answers (r : Except Err State) (s : State) : Answers (finishOr r s) := by
  cases r with
  | ok t => exact finish_answers [] t
  | error e => exact raise_answers e s

/-- Where every offset holds a byte, the read gives bytes. -/
theorem memBytes_of_held (m : Memory) (n a : Nat) (h : ∀ k, k < n → (memGet m (a + k)).isSome) :
    ∃ bs, memBytes m a n = some bs := by
  induction n generalizing a with
  | zero => exact ⟨[], rfl⟩
  | succ n ih =>
    obtain ⟨b, hb⟩ := Option.isSome_iff_exists.mp (h 0 n.succ_pos)
    obtain ⟨bs, hbs⟩ := ih (a + 1) fun k hk => by
      rw [Nat.add_assoc, Nat.add_comm 1 k]
      exact h (k + 1) (Nat.succ_lt_succ hk)
    exact ⟨b :: bs, by simp only [memBytes, hbs, show memGet m a = some b from hb]⟩

/-- A pending frame lies within the buffer and each of its bytes is there. -/
theorem BlockInv.memRead_pending {s : State} (h : BlockInv s) (hp : s.envState = .pending) :
    ∃ bs, memRead s 0 s.pktSize.toNat = .ok bs := by
  obtain ⟨bs, hbs⟩ := memBytes_of_held s.buf s.pktSize.toNat 0 fun k hk => by
    rw [Nat.zero_add]
    exact h.buf_held hp k hk
  refine ⟨bs, (memRead_eq_ok _ _ _ _).mpr ⟨?_, hbs⟩⟩
  rw [Nat.zero_add]
  exact (h.pending_size hp).2

theorem BlockInv.envRead_answers {s : State} (h : BlockInv s) : Answers (execEnvRead s) := by
  by_cases hp : s.envState = .pending
  · obtain ⟨bs, hbs⟩ := h.memRead_pending hp
    simp only [execEnvRead, hp, hbs, if_true]
    exact finish_answers _ s
  · simp only [execEnvRead, hp, if_false]
    exact raise_answers _ s

/-- In a state with the invariant no operation faults: only `ENV.READ` could, on a frame the buffer does not hold. -/
theorem BlockInv.exec_answers {s : State} (h : BlockInv s) (i : Instr) : Answers (exec i s) := by
  cases i with
  | pverSet v =>
    simp only [exec, execPverSet]
    cases versionOf v with
    | none => exact raise_answers _ s
    | some w => exact finish_answers _ _
  | mapRd k =>
    simp only [exec, execMapRd]
    cases regmapRead s.params k with
    | none => exact raise_answers _ s
    | some d => exact finish_answers _ s
  | envNewa b => exact finishOr_answers _ s
  | envNewb r b => exact .ite (raise_answers _ s) (.ite (raise_answers _ s) (finishOr_answers _ s))
  | envConsume => exact .ite (finish_answers _ _) (raise_answers _ s)
  | envRead => exact h.envRead_answers
  | f1Frame r b => exact finishOr_answers _ s
  | f2Frame id c r ps => exact .ite (raise_answers _ s) (.ite (raise_answers _ s) (finishOr_answers _ s))
  | regRd d => exact .ite (finishOr_answers _ s) (raise_answers _ s)
  | regWr d a b => exact .ite (raise_answers _ s) (.ite (finishOr_answers _ s) (raise_answers _ s))
  | regSetid n a =>
    simp only [exec, execRegSetid]
    refine .ite ?_ (raise_answers _ s)
    split
    · exact finish_answers _ _
    · exact raise_answers _ s
  | regXtr d b => exact .ite (.ite (finish_answers _ s) (raise_answers _ s)) (raise_answers _ s)
  | _ => exact ⟨_, rfl⟩

theorem BlockInv.answer_answers {s : State} (h : BlockInv s) (m : List Byte) : Answers (answer m s) := by
  cases hm : decode m with
  | ok i => rw [answer_ok hm]; exact h.exec_answers i
  | error e => exact ⟨_, answer_error hm s⟩

/-- No step stops in a state with the invariant whose inputs can be delivered. -/
theorem BlockInv.step_answers {s : State} (h : BlockInv s) (hd : InboxDeliverable s) : Answers (step s) := by
  cases hin : s.inbox with
  | nil => exact ⟨s, step_idle hin⟩
  | cons x rest =>
    cases x with
    | reset => exact ⟨_, step_reset hin⟩
    | command p m =>
      obtain ⟨hmin, hmax⟩ := hd p m (hin ▸ List.mem_cons_self)
      rw [step_command hin hmin hmax]
      exact (h.setInbox rest).answer_answers m

/-! ### One step -/

/-- A step that is answered has taken the next input, and only that. -/
theorem step_inbox {s t : State} (h : step s = .next t) : t.inbox = s.inbox.tail := by
  rcases step_cases h with
    ⟨hin, rfl⟩ | ⟨rest, hin, rfl⟩ | ⟨_, _, rest, _, hin, -, hexec⟩ | ⟨_, _, rest, _, hin, -, rfl⟩
  · rw [hin]; rfl
  · rw [hin]; rfl
  · rw [hin, exec_inbox hexec]; rfl
  · rw [hin]; rfl

theorem InboxDeliverable.after_step {s t : State} (hd : InboxDeliverable s) (h : step s = .next t)
    (hparams : t.params = s.params) : InboxDeliverable t := fun p m hm => by
  rw [hparams]
  exact hd p m (List.mem_of_mem_tail (step_inbox h ▸ hm))

/-- What a step on a command can have done: the operation the message decodes to, or the refusal of a message that
is none. -/
theorem step_command_cases {s t : State} {p : Party} {m : List Byte} {rest : List Input}
    (hin : s.inbox = .command p m :: rest) (h : step s = .next t) :
    (∃ i, decode m = .ok i ∧ exec i (s.setInbox rest) = .next t) ∨
    ∃ e, decode m = .error e ∧ t = replied (s.setInbox rest) [0x06] := by
  rcases step_cases h with ⟨hx, -⟩ | ⟨_, hx, -⟩ | ⟨_, _, _, i, hx, hm, hexec⟩ | ⟨_, _, _, e, hx, hm, ht⟩
  · cases hin.symm.trans hx
  · cases hin.symm.trans hx
  · cases hin.symm.trans hx; exact .inl ⟨i, hm, hexec⟩
  · cases hin.symm.trans hx; exact .inr ⟨e, hm, ht⟩

/-- Every command is answered with one result message (30_encoding.md R71). -/
theorem step_command_result {s t : State} {p : Party} {m : List Byte} {rest : List Input}
    (hin : s.inbox = .command p m :: rest) (h : step s = .next t) : ∃ r, t.outbox = s.outbox ++ [r] := by
  rcases step_command_cases hin h with ⟨i, -, hexec⟩ | ⟨e, -, rfl⟩
  · obtain ⟨r, hr, -⟩ := everyOperationAnswersOnce i _ _ hexec
    exact ⟨r, hr⟩
  · exact ⟨[0x06], rfl⟩

/-! ### Taking several inputs -/

/-- The inputs `xs` stand first in the inbox of `s`, and taking them, each in an answered step, leads to `t`. -/
inductive Takes : State → List Input → State → Prop
  | nil (s : State) : Takes s [] s
  | cons {s u t : State} {x : Input} {xs rest : List Input} (hin : s.inbox = x :: rest) (hstep : step s = .next u)
      (htail : Takes u xs t) : Takes s (x :: xs) t

theorem Takes.run_eq {s t : State} {xs : List Input} (h : Takes s xs t) : run xs.length s = .next t := by
  induction h with
  | nil s => rfl
  | cons _ hstep _ ih => exact (run_succ _ _ _ hstep).trans ih

theorem Takes.append {s u t : State} {xs ys : List Input} (h : Takes s xs u) (h' : Takes u ys t) :
    Takes s (xs ++ ys) t := by
  induction h with
  | nil s => exact h'
  | cons hin hstep _ ih => exact .cons hin hstep (ih h')

theorem takes_one {s t : State} {x : Input} {rest : List Input} (hin : s.inbox = x :: rest)
    (hstep : step s = .next t) : Takes s [x] t :=
  .cons hin hstep (.nil t)

/-- From a state with the invariant any deliverable inputs are taken, and the invariant holds afterwards. -/
theorem BlockInv.takes {s : State} (h : BlockInv s) (hd : InboxDeliverable s) {xs rest : List Input}
    (hin : s.inbox = xs ++ rest) : ∃ t, Takes s xs t ∧ BlockInv t ∧ t.params = s.params ∧ t.inbox = rest := by
  induction xs generalizing s with
  | nil => exact ⟨s, .nil s, h, rfl, hin⟩
  | cons x xs ih =>
    obtain ⟨u, hu⟩ := h.step_answers hd
    obtain ⟨hinv, hparams⟩ := h.after_step hu
    have hrest : u.inbox = xs ++ rest := by rw [step_inbox hu, hin]; rfl
    obtain ⟨t, ht, htinv, htparams, htin⟩ := ih hinv (hd.after_step hu hparams) hrest
    exact ⟨t, .cons hin hu ht, htinv, htparams.trans hparams, htin⟩

/-- Commands are answered one by one, in their order. -/
theorem Takes.results {s t : State} {xs : List Input} {clear : Instr} (h : Takes s xs t)
    (hc : ∀ x ∈ xs, Continues clear x) :
    ∃ results : List (List Byte), results.length = xs.length ∧ t.outbox = s.outbox ++ results := by
  induction h with
  | nil s => exact ⟨[], rfl, (List.append_nil _).symm⟩
  | cons hin hstep _ ih =>
    obtain ⟨hx, hxs⟩ := List.forall_mem_cons.mp hc
    obtain ⟨p, m, rfl, -⟩ := hx
    obtain ⟨r, hr⟩ := step_command_result hin hstep
    obtain ⟨results, hlen, hout⟩ := ih hxs
    exact ⟨r :: results, congrArg Nat.succ hlen, by rw [hout, hr, List.append_assoc]; rfl⟩

end Sys2Proof.Machine
end

section
/-! The checksum engine (40_checksum_engine.md): the sum as a number, the four operations, and the runs that stream
bytes into `SUM_ACC`. -/
namespace Sys2Proof.Machine

/-! ### The sum and its complement -/

/-- The sum of the bytes as a number, as R100 writes it. -/
abbrev byteSum (s : List Byte) : Nat := (s.map BitVec.toNat).sum

theorem sumBytes_toNat (acc : Byte) (s : List Byte) :
    (sumBytes acc s).toNat = (acc.toNat + byteSum s) % 256 := by
  induction s generalizing acc with
  | nil => exact (Nat.mod_eq_of_lt acc.isLt).symm
  | cons b bs ih =>
    calc (sumBytes (acc + b) bs).toNat
      _ = ((acc.toNat + b.toNat) % 256 + byteSum bs) % 256 := by rw [ih, BitVec.toNat_add]
      _ = (acc.toNat + byteSum (b :: bs)) % 256 := by
        rw [Nat.mod_add_mod, Nat.add_assoc]; rfl

theorem byte_not_eq (v : Byte) : ~~~ v = BitVec.ofNat 8 (255 - v.toNat) := by
  apply BitVec.eq_of_toNat_eq
  rw [BitVec.toNat_not, BitVec.toNat_ofNat]
  omega

/-- The closed form of R100. -/
theorem csum1_toNat (s : List Byte) : (csum1 s).toNat = 255 - byteSum s % 256 := by
  rw [csum1, BitVec.toNat_not, sumBytes_toNat]
  simp

/-- The checksum depends on the bytes through their sum modulo 256 only. -/
theorem csum1_eq_of_byteSum {s t : List Byte} (h : byteSum s % 256 = byteSum t % 256) : csum1 s = csum1 t := by
  apply BitVec.eq_of_toNat_eq
  rw [csum1_toNat, csum1_toNat, h]

theorem csum1_eq (s : List Byte) : csum1 s = BitVec.ofNat 8 (255 - byteSum s % 256) := by
  rw [← csum1_toNat, BitVec.ofNat_toNat, BitVec.setWidth_eq]

theorem byteSum_append (s t : List Byte) : byteSum (s ++ t) = byteSum s + byteSum t := by
  simp [byteSum]

/-- Law (c) of R100: a byte sequence with its own checksum sums to `FF` (90_conflicts.md C1). -/
theorem byteSum_append_csum1 (s : List Byte) : byteSum (s ++ [csum1 s]) % 256 = 0xFF := by
  have hone : byteSum [csum1 s] = 255 - byteSum s % 256 := csum1_toNat s
  rw [byteSum_append, hone]
  omega

/-- Settles O12: laws (b) and (d) hold because the checksum sees the sum alone. -/
theorem csum1IsTheComplementOfTheSum : Obligations.Csum1IsTheComplementOfTheSum := by
  refine fun s => ⟨csum1_toNat s, rfl, fun s' t h => csum1_eq_of_byteSum ?_, byteSum_append_csum1 s,
    fun s' h => csum1_eq_of_byteSum ?_⟩
  · rw [byteSum_append, byteSum_append, Nat.add_mod, h, ← Nat.add_mod]
  · exact congrArg (· % 256) (h.map BitVec.toNat).sum_eq

/-! ### The operations and their messages -/

/-- A message of format N is the operation when nothing follows the opcode, and illegal otherwise (30_encoding.md
R72, R90). -/
theorem answer_formatN {op : Byte} {i : Instr} (hdec : ∀ rest, decode (op :: rest) = decodeN op i rest)
    (rest : List Byte) (s : State) :
    answer (op :: rest) s = if rest = [] then exec i s else .next (replied s [0x06]) := by
  cases rest with
  | nil => exact answer_ok (hdec []) s
  | cons b bs => exact answer_error (hdec (b :: bs)) s

/-- A message of format B with other than one operand byte is illegal (R72, R90). -/
theorem answer_formatB_malformed {op : Byte} {f : Byte → Instr}
    (hdec : ∀ rest, decode (op :: rest) = decodeB op f rest) {rest : List Byte} (h : rest.length ≠ 1) (s : State) :
    answer (op :: rest) s = .next (replied s [0x06]) :=
  answer_error ((hdec rest).trans (decodeB_malformed op f h)) s

theorem exec_sumClr (s : State) : exec .sumClr s = .next (replied (s.setSumAcc 0) [0x00]) := rfl

theorem exec_sumByte (b : Byte) (s : State) :
    exec (.sumByte b) s = .next (replied (s.setSumAcc (s.sumAcc + b)) [0x00]) := rfl

theorem exec_sumGet (s : State) : exec .sumGet s = .next (replied s [0x00, ~~~ s.sumAcc]) := rfl

theorem exec_csum1 (bytes : List Byte) (s : State) :
    exec (.csum1 bytes) s = .next (replied s [0x00, csum1 bytes]) := rfl

/-- Settles O13. -/
theorem sumClrClearsTheSum : Obligations.SumClrClearsTheSum := fun s =>
  ⟨exec_sumClr s, fun rest => answer_formatN (fun _ => rfl) rest s⟩

/-- Addition of bytes discards the carry out of bit 7 (R102). -/
theorem byte_add_eq (a b : Byte) : a + b = BitVec.ofNat 8 ((a.toNat + b.toNat) % 256) := by
  apply BitVec.eq_of_toNat_eq
  rw [BitVec.toNat_add, BitVec.toNat_ofNat, Nat.mod_mod]

/-- Settles O14. -/
theorem sumByteAddsTheByte : Obligations.SumByteAddsTheByte := by
  refine fun s b => ⟨?_, answer_ok rfl s, fun rest h => answer_formatB_malformed (f := .sumByte) (fun _ => rfl) h s⟩
  rw [← byte_add_eq]
  exact exec_sumByte b s

/-- Settles O15. -/
theorem sumGetAnswersTheComplement : Obligations.SumGetAnswersTheComplement := by
  refine fun s => ⟨?_, fun rest => answer_formatN (fun _ => rfl) rest s⟩
  rw [← byte_not_eq]
  exact exec_sumGet s

/-- Settles O16: format S has no malformed message (30_encoding.md R90). -/
theorem csum1AnswersTheChecksum : Obligations.Csum1AnswersTheChecksum := by
  refine fun s bytes => ⟨?_, answer_ok rfl s⟩
  rw [← csum1_eq]
  exact exec_csum1 bytes s

/-! ### The steps that clear, feed and read the sum -/

/-- The messages of the engine's own operations are short enough to be delivered in every configuration. -/
theorem two_le_msgMax {p : Params} (h : p.Wf) : 2 ≤ p.msgMax := by
  have := h.msgMax_ge
  omega

theorem step_sumClr {s : State} {p : Party} {rest : List Input} (hp : s.params.Wf)
    (hin : s.inbox = .command p [0x10] :: rest) :
    step s = .next (replied ((s.setInbox rest).setSumAcc 0) [0x00]) :=
  step_command hin (by decide) (Nat.le_of_succ_le (two_le_msgMax hp))

theorem step_sumByte {s : State} {p : Party} {b : Byte} {rest : List Input} (hp : s.params.Wf)
    (hin : s.inbox = .command p [0x11, b] :: rest) :
    step s = .next (replied ((s.setInbox rest).setSumAcc (s.sumAcc + b)) [0x00]) :=
  step_command hin (Nat.le_add_left 1 1) (two_le_msgMax hp)

theorem step_sumGet {s : State} {p : Party} {rest : List Input} (hp : s.params.Wf)
    (hin : s.inbox = .command p [0x12] :: rest) :
    step s = .next (replied (s.setInbox rest) [0x00, ~~~ s.sumAcc]) :=
  step_command hin (by decide) (Nat.le_of_succ_le (two_le_msgMax hp))

/-! ### The sum along a run -/

theorem sumFeed_eq_none {p : Party} {m : List Byte} (h : ∀ b, decode m ≠ .ok (.sumByte b)) :
    sumFeed (.command p m) = none := by
  refine Option.eq_none_iff_forall_ne_some.mpr fun b hb => ?_
  obtain ⟨_, _, hx, hm⟩ := (sumFeed_eq_some _ b).mp hb
  cases hx
  exact h b hm

/-- An operation other than `SUM.CLR` adds its byte to `SUM_ACC` if it is `SUM.BYTE`, and else leaves it alone. -/
theorem exec_sumAcc {i : Instr} {s t : State} (h : exec i s = .next t) (hclr : i ≠ .sumClr) :
    (∃ b, i = .sumByte b ∧ t.sumAcc = s.sumAcc + b) ∨ (∀ b, i ≠ .sumByte b) ∧ t.sumAcc = s.sumAcc := by
  by_cases hi : ∃ b, i = .sumByte b
  · obtain ⟨b, rfl⟩ := hi
    cases h
    exact .inl ⟨b, rfl, rfl⟩
  · refine .inr ⟨not_exists.mp hi, by_contra fun hne => ?_⟩
    exact ((effect_of_exec h).sumAcc_writer hne).elim hclr hi

/-- A command that does not clear the sum adds to it what it feeds. -/
theorem step_sumAcc {s t : State} {x : Input} {rest : List Input} (hx : Continues .sumClr x)
    (hin : s.inbox = x :: rest) (h : step s = .next t) :
    t.sumAcc = sumBytes s.sumAcc ([x].filterMap sumFeed) := by
  obtain ⟨p, m, rfl, hclr⟩ := hx
  rcases step_command_cases hin h with ⟨i, hm, hexec⟩ | ⟨e, hm, rfl⟩
  · rcases exec_sumAcc hexec fun hi => hclr (hi ▸ hm) with ⟨b, rfl, hacc⟩ | ⟨hi, hacc⟩
    · have hfeed : sumFeed (.command p m) = some b := (sumFeed_eq_some _ b).mpr ⟨p, m, rfl, hm⟩
      simp [hfeed, hacc, sumBytes]
    · have hfeed : sumFeed (.command p m) = none := sumFeed_eq_none (by simpa [hm] using hi)
      simp [hfeed, hacc, sumBytes]
  · have hfeed : sumFeed (.command p m) = none := sumFeed_eq_none (by simp [hm])
    simp [hfeed, sumBytes]

/-- Commands without `SUM.CLR` add to the sum the bytes their `SUM.BYTE`s feed, in their order. -/
theorem Takes.sumAcc {s t : State} {xs : List Input} (h : Takes s xs t) (hc : ∀ x ∈ xs, Continues .sumClr x) :
    t.sumAcc = sumBytes s.sumAcc (xs.filterMap sumFeed) := by
  induction h with
  | nil s => rfl
  | @cons s u t x xs rest hin hstep _ ih =>
    obtain ⟨hx, hxs⟩ := List.forall_mem_cons.mp hc
    calc t.sumAcc
      _ = sumBytes u.sumAcc (xs.filterMap sumFeed) := ih hxs
      _ = sumBytes s.sumAcc ([x].filterMap sumFeed ++ xs.filterMap sumFeed) := by
        rw [step_sumAcc hx hin hstep, sumBytes_append]
      _ = sumBytes s.sumAcc ((x :: xs).filterMap sumFeed) := by rw [← List.filterMap_append]; rfl

/-- The state after `SUM.BYTE`s with these bytes, `rest` still to come. -/
def State.afterSumBytes (s : State) (bytes : List Byte) (rest : List Input) : State :=
  { s with
    sumAcc := sumBytes s.sumAcc bytes
    inbox := rest
    outbox := s.outbox ++ List.replicate bytes.length [0x00] }

/-- `SUM.BYTE`s alone add their bytes, answer `00` each, and change nothing else. -/
theorem takes_sumBytes {s : State} (hp : s.params.Wf) (fed : List (Party × Byte)) (rest : List Input) :
    Takes (s.setInbox ((fed.map fun x => Input.command x.1 [0x11, x.2]) ++ rest))
      (fed.map fun x => Input.command x.1 [0x11, x.2]) (s.afterSumBytes (fed.map Prod.snd) rest) := by
  induction fed generalizing s with
  | nil =>
    have hnone : s.afterSumBytes [] rest = s.setInbox rest := by
      simp [State.afterSumBytes, State.setInbox, sumBytes]
    exact hnone.symm ▸ .nil _
  | cons x fed ih =>
    have htail := ih (s := replied (s.setSumAcc (s.sumAcc + x.2)) [0x00]) hp
    have hafter : (replied (s.setSumAcc (s.sumAcc + x.2)) [0x00]).afterSumBytes (fed.map Prod.snd) rest =
        s.afterSumBytes ((x :: fed).map Prod.snd) rest := by
      simp [State.afterSumBytes, State.setSumAcc, replied, sumBytes, List.replicate_succ]
    exact .cons rfl (step_sumByte hp rfl) (hafter ▸ htail)

/-- Settles O17: `SUM.CLR` brings the sum to 0 whatever it held, the bytes fed are added to it, and `SUM.GET` answers
the complement, which is `csum1` by definition. -/
theorem streamedSumEqualsOneShot : Obligations.StreamedSumEqualsOneShot := by
  refine ⟨fun s p q fed hp hin => ?plain, fun s p q between hinv hd hin hc => ?mixed⟩
  case plain =>
    have hclr := step_sumClr hp hin
    have hfed := takes_sumBytes (s := replied (s.setSumAcc 0) [0x00]) hp fed [.command q [0x12]]
    have hget := step_sumGet (s := (replied (s.setSumAcc 0) [0x00]).afterSumBytes (fed.map Prod.snd)
      [.command q [0x12]]) hp rfl
    have hrun := ((Takes.cons hin hclr hfed).append (takes_one rfl hget)).run_eq
    refine ⟨_, by simpa using hrun, ?_⟩
    simp [State.afterSumBytes, replied, csum1, List.replicate_succ]
  case mixed =>
    have hclr := step_sumClr hinv.params_wf hin
    obtain ⟨hinv0, hparams0⟩ := hinv.after_step hclr
    obtain ⟨u, hbetween, hinvu, -, hinu⟩ := hinv0.takes (hd.after_step hclr hparams0) rfl
    obtain ⟨results, hlen, hout⟩ := hbetween.results hc
    have hget := step_sumGet hinvu.params_wf hinu
    have hrun := ((Takes.cons hin hclr hbetween).append (takes_one hinu hget)).run_eq
    have hsum : ~~~ u.sumAcc = csum1 (between.filterMap sumFeed) := congrArg (~~~ ·) (hbetween.sumAcc hc)
    refine ⟨_, [0x00] :: results, by simpa using hrun, (hinvu.after_step hget).1, congrArg Nat.succ hlen, ?_⟩
    simp [hout, hsum]

end Sys2Proof.Machine
end

section
/-! The CRC-16 generator (41_crc16_generator.md): the recurrence for every table, the laws of the default table, the
operations, and the runs that stream bytes into `CRC_ACC`. -/
namespace Sys2Proof.Machine

/-! ### The bytes of a u16 under exclusive-or and shift -/

theorem lo8_xor (v w : U16) : lo8 (v ^^^ w) = lo8 v ^^^ lo8 w := BitVec.setWidth_xor

theorem hi8_xor (v w : U16) : hi8 (v ^^^ w) = hi8 v ^^^ hi8 w := by
  rw [hi8, BitVec.ushiftRight_xor_distrib, BitVec.setWidth_xor]; rfl

theorem lo8_shiftLeft_eight (v : U16) : lo8 (v <<< 8) = 0 := by
  apply BitVec.eq_of_toNat_eq
  rw [lo8_toNat, BitVec.toNat_shiftLeft, Nat.shiftLeft_eq]
  simp

theorem hi8_shiftLeft_eight (v : U16) : hi8 (v <<< 8) = lo8 v := by
  apply BitVec.eq_of_toNat_eq
  rw [hi8_toNat, lo8_toNat, BitVec.toNat_shiftLeft, Nat.shiftLeft_eq]
  omega

/-- The left shift drops the high byte (R111). -/
theorem shiftLeft_eight_eq (v : U16) : v <<< 8 = (lo8 v).setWidth 16 <<< 8 := by
  apply BitVec.eq_of_toNat_eq
  simp only [BitVec.toNat_shiftLeft, BitVec.toNat_setWidth, lo8_toNat, Nat.shiftLeft_eq]
  omega

/-! ### The recurrence, for every table -/

/-- The table index of R111, as the document writes it. -/
theorem crcIndex_eq (acc : U16) (b : Byte) :
    hi8 acc ^^^ b = BitVec.ofNat 8 (((acc.toNat >>> 8) ^^^ b.toNat) &&& 0xFF) := by
  apply BitVec.eq_of_toNat_eq
  have hlt : acc.toNat / 256 ^^^ b.toNat < 2 ^ 8 := Nat.xor_lt_two_pow (by have := acc.isLt; omega) b.isLt
  rw [BitVec.toNat_xor, hi8_toNat, BitVec.toNat_ofNat, Nat.shiftRight_eq_div_pow,
    Nat.and_two_pow_sub_one_eq_mod _ 8, Nat.mod_mod, Nat.mod_eq_of_lt hlt]

theorem crcStep_toNat (p : Params) (acc : U16) (b : Byte) :
    (crcStep p acc b).toNat = ((acc.toNat <<< 8) &&& 0xFFFF) ^^^ (tabRead p (hi8 acc ^^^ b)).toNat := by
  rw [crcStep, BitVec.toNat_xor, BitVec.toNat_shiftLeft, Nat.and_two_pow_sub_one_eq_mod _ 16]

/-- Settles O18. -/
theorem crcStepIsTheRecurrence : Obligations.CrcStepIsTheRecurrence := fun p acc b =>
  ⟨crcIndex_eq acc b ▸ crcStep_toNat p acc b, by rw [← shiftLeft_eight_eq, crcStep]⟩

theorem crc16_nil (p : Params) : crc16 p [] = 0 := rfl

theorem crc16_append (p : Params) (s t : List Byte) : crc16 p (s ++ t) = crcBytes p (crc16 p s) t :=
  crcBytes_append p crcInit s t

/-- Settles O19. -/
theorem crc16StartsAtZeroAndFoldsByBytes : Obligations.Crc16StartsAtZeroAndFoldsByBytes := fun p =>
  ⟨crc16_nil p, fun s b => crc16_append p s [b]⟩

/-- From a clear accumulator a step reads the byte's own entry. -/
theorem crcStep_zero (p : Params) (b : Byte) : crcStep p 0 b = tabRead p b := by
  simp [crcStep, hi8]

/-- The table is all of the configuration that the recurrence reads. -/
theorem crcBytes_congr {p q : Params} (h : p.crcTable = q.crcTable) (acc : U16) (s : List Byte) :
    crcBytes p acc s = crcBytes q acc s := by
  induction s generalizing acc with
  | nil => rfl
  | cons b bs ih =>
    have hstep : crcStep p acc b = crcStep q acc b := by simp only [crcStep, tabRead, h]
    exact (ih _).trans (congrArg (crcBytes q · bs) hstep)

/-! ### The default table (R113) -/

/-- A shift of the generator feeds the polynomial back when it drops a bit. -/
theorem tableShift_eq (a : U16) : tableShift a = a <<< 1 ^^^ if a.getLsbD 15 then 0x8005 else 0 := by
  have htop : a &&& 0x8000 = if a.getLsbD 15 then 0x8000 else 0 := BitVec.and_twoPow a 15
  rw [tableShift, htop]
  cases a.getLsbD 15 <;> simp

theorem tableShift_xor (a b : U16) : tableShift (a ^^^ b) = tableShift a ^^^ tableShift b := by
  have hfeedback : ∀ x y : Bool, (if x ^^ y then (0x8005 : U16) else 0) =
      (if x then 0x8005 else 0) ^^^ if y then 0x8005 else 0 := by decide
  rw [tableShift_eq, tableShift_eq, tableShift_eq, BitVec.getLsbD_xor, hfeedback, BitVec.shiftLeft_xor_distrib]
  ac_rfl

theorem tableEntry_xor (i j : Byte) : tableEntry (i ^^^ j) = tableEntry i ^^^ tableEntry j := by
  simp only [tableEntry, BitVec.setWidth_xor, BitVec.shiftLeft_xor_distrib, tableShift_xor]

/-- The transcription of R113, entry by entry. -/
theorem defaultCrcTable_getElem : ∀ i : Byte, defaultCrcTable[i.toNat]'(i.isLt) = tableEntry i := by
  decide +kernel

/-- The low byte alone tells an entry from entry 0. -/
theorem eq_zero_of_lo8_tableEntry : ∀ i : Byte, lo8 (tableEntry i) = 0 → i = 0 := by
  decide +kernel

/-- By linearity the low byte alone tells any two entries apart. -/
theorem lo8_tableEntry_injective : Function.Injective fun i => lo8 (tableEntry i) := by
  intro i j h
  apply BitVec.xor_eq_zero_iff.mp
  apply eq_zero_of_lo8_tableEntry
  rw [tableEntry_xor, lo8_xor]
  exact BitVec.xor_eq_zero_iff.mpr h

theorem tableEntry_injective : Function.Injective tableEntry := fun _ _ h =>
  lo8_tableEntry_injective (congrArg lo8 h)

theorem defaultCrcTable_toList :
    defaultCrcTable.toList = (List.finRange 256).map fun k => tableEntry (.ofFin k) := by
  refine List.ext_getElem (by simp) fun k hk _ => ?_
  rw [Vector.getElem_toList, List.getElem_map, List.getElem_finRange]
  exact defaultCrcTable_getElem (.ofFin ⟨k, by simpa using hk⟩)

theorem defaultCrcTable_nodup : defaultCrcTable.toList.Nodup := by
  rw [defaultCrcTable_toList]
  exact (List.nodup_finRange 256).map fun _ _ h => BitVec.ofFin.inj (tableEntry_injective h)

/-- The check value of R113, computed in one configuration: only the table matters. -/
theorem crc16_nineDigits {p : Params} (hp : p.crcTable = defaultCrcTable) :
    crc16 p [0x31, 0x32, 0x33, 0x34, 0x35, 0x36, 0x37, 0x38, 0x39] = 0xFEE8 := by
  have hconfigured : crc16 configured [0x31, 0x32, 0x33, 0x34, 0x35, 0x36, 0x37, 0x38, 0x39] = 0xFEE8 := by
    decide +kernel
  exact (crcBytes_congr (q := configured) hp _ _).trans hconfigured

theorem defaultCrcTable_xor : defaultCrcTable.toList.foldl (· ^^^ ·) 0 = 0x0000 := by decide +kernel

theorem defaultCrcTable_sum : (defaultCrcTable.toList.map BitVec.toNat).sum = 4325248 := by decide +kernel

/-- Settles O23: the table is its generator's, entry by entry, so its entries differ because the generator's do. -/
theorem defaultTableIsGeneratedAndChecks : Obligations.DefaultTableIsGeneratedAndChecks :=
  ⟨defaultCrcTable_getElem, defaultCrcTable_nodup, defaultCrcTable_getElem 0x00,
    defaultCrcTable_getElem 0x01, defaultCrcTable_getElem 0x80, defaultCrcTable_getElem 0xFF, defaultCrcTable_xor,
    defaultCrcTable_sum, fun _ => crc16_nineDigits⟩

/-! ### The laws of the default table (R112) -/

/-- A step shifts the low byte away, so the low byte it leaves is that of the entry. -/
theorem lo8_crcStep (p : Params) (acc : U16) (b : Byte) :
    lo8 (crcStep p acc b) = lo8 (tabRead p (hi8 acc ^^^ b)) := by
  rw [crcStep, lo8_xor, lo8_shiftLeft_eight]
  exact BitVec.zero_xor

section
variable {p : Params} (hp : p.crcTable = defaultCrcTable)
include hp

theorem tabRead_default (i : Byte) : tabRead p i = tableEntry i := by
  rw [← defaultCrcTable_getElem]
  simp only [tabRead, hp]

theorem crcStep_zero_zero : crcStep p 0 0 = 0 := by
  rw [crcStep_zero, tabRead_default hp]
  decide

theorem crcStep_xor (acc acc' : U16) (b b' : Byte) :
    crcStep p (acc ^^^ acc') (b ^^^ b') = crcStep p acc b ^^^ crcStep p acc' b' := by
  have hindex : hi8 (acc ^^^ acc') ^^^ (b ^^^ b') = (hi8 acc ^^^ b) ^^^ (hi8 acc' ^^^ b') := by
    rw [hi8_xor]
    ac_rfl
  simp only [crcStep, tabRead_default hp, hindex, tableEntry_xor, BitVec.shiftLeft_xor_distrib]
  ac_rfl

theorem crcBytes_xor (acc acc' : U16) (s t : List Byte) (h : s.length = t.length) :
    crcBytes p (acc ^^^ acc') (List.zipWith (· ^^^ ·) s t) = crcBytes p acc s ^^^ crcBytes p acc' t := by
  induction s generalizing acc acc' t with
  | nil =>
    obtain rfl := List.length_eq_zero_iff.mp h.symm
    rfl
  | cons b bs ih =>
    obtain ⟨c, cs, rfl⟩ := List.exists_cons_of_length_eq_add_one h.symm
    rw [List.zipWith_cons_cons, crcBytes, crcStep_xor hp]
    exact ih _ _ cs (Nat.succ.inj h)

theorem crc16_zero_cons (s : List Byte) : crc16 p (0x00 :: s) = crc16 p s :=
  congrArg (crcBytes p · s) (crcStep_zero_zero hp)

theorem crc16_zeros (n : Nat) : crc16 p (List.replicate n 0x00) = 0 := by
  induction n with
  | zero => exact crc16_nil p
  | succ n ih => exact (crc16_zero_cons hp _).trans ih

/-- Both the byte and the high byte of the accumulator are in the index, which the result's low byte tells. -/
theorem crcIndex_eq_of_crcStep_eq {acc acc' : U16} {b b' : Byte} (h : crcStep p acc b = crcStep p acc' b') :
    hi8 acc ^^^ b = hi8 acc' ^^^ b' := by
  apply lo8_tableEntry_injective
  simpa only [lo8_crcStep, tabRead_default hp] using congrArg lo8 h

theorem crcStep_injective_acc (b : Byte) : Function.Injective (crcStep p · b) := by
  intro acc acc' h
  have hindex := crcIndex_eq_of_crcStep_eq hp h
  have hshift : acc <<< 8 = acc' <<< 8 := by
    simpa only [crcStep, hindex, BitVec.xor_left_inj] using h
  have hlo : lo8 acc = lo8 acc' := by
    rw [← hi8_shiftLeft_eight, hshift, hi8_shiftLeft_eight]
  have hhi : hi8 acc = hi8 acc' := (BitVec.xor_left_inj b).mp hindex
  rw [← u16le_lo8_hi8 acc, hlo, hhi, u16le_lo8_hi8]

theorem crcStep_injective_byte (acc : U16) : Function.Injective (crcStep p acc) := fun _ _ h =>
  (BitVec.xor_right_inj _).mp (crcIndex_eq_of_crcStep_eq hp h)

theorem crcBytes_injective_acc (s : List Byte) : Function.Injective (crcBytes p · s) := by
  induction s with
  | nil => exact fun _ _ h => h
  | cons b bs ih => exact ih.comp (crcStep_injective_acc hp b)

/-- The accumulator's own high byte reads entry 0, and the step only shifts. -/
theorem crcStep_hi8 (acc : U16) : crcStep p acc (hi8 acc) = acc <<< 8 := by
  rw [crcStep, BitVec.xor_self, tabRead_default hp]
  exact BitVec.xor_zero

/-- High byte first, a CRC shifts itself out of the accumulator. -/
theorem crcBytes_own_bytes (acc : U16) : crcBytes p acc [hi8 acc, lo8 acc] = 0 := by
  calc crcStep p (crcStep p acc (hi8 acc)) (lo8 acc)
    _ = crcStep p (acc <<< 8) (hi8 (acc <<< 8)) := by rw [crcStep_hi8 hp, hi8_shiftLeft_eight]
    _ = acc <<< 8 <<< 8 := crcStep_hi8 hp _
    _ = 0 := by rw [← BitVec.shiftLeft_add]; exact BitVec.shiftLeft_eq_zero (Nat.le_refl 16)

end

/-- Settles O20. -/
theorem crc16OfDefaultTableIsLinear : Obligations.Crc16OfDefaultTableIsLinear := fun _ hp =>
  ⟨crc16_zero_cons hp, crc16_zeros hp, crcBytes_xor hp 0 0⟩

/-- Settles O21: a step tells the two bytes apart, and no later step makes two accumulators equal. -/
theorem crc16OfDefaultTableSeesOneByte : Obligations.Crc16OfDefaultTableSeesOneByte := by
  intro p front back b c hp hne heq
  rw [crc16_append, crc16_append] at heq
  exact hne (crcStep_injective_byte hp _ (crcBytes_injective_acc hp back heq))

/-- Settles O22. -/
theorem crc16OfDefaultTableHasZeroResidue : Obligations.Crc16OfDefaultTableHasZeroResidue := by
  intro p s hp
  rw [crc16_append]
  exact crcBytes_own_bytes hp _

/-! ### The operations and their messages -/

theorem exec_crcClr (s : State) : exec .crcClr s = .next (replied (s.setCrcAcc 0) [0x00]) := rfl

theorem exec_crcByte (b : Byte) (s : State) :
    exec (.crcByte b) s = .next (replied (s.setCrcAcc (crcStep s.params s.crcAcc b)) [0x00]) := rfl

theorem exec_crcGet (s : State) : exec .crcGet s = .next (replied s (0x00 :: le2 s.crcAcc)) := rfl

theorem exec_crc16 (bytes : List Byte) (s : State) :
    exec (.crc16 bytes) s = .next (replied s (0x00 :: le2 (crc16 s.params bytes))) := rfl

/-- Settles O24. -/
theorem crcClrClearsTheCrc : Obligations.CrcClrClearsTheCrc := fun s =>
  ⟨exec_crcClr s, fun rest => answer_formatN (fun _ => rfl) rest s⟩

/-- Settles O25. -/
theorem crcByteFoldsTheByte : Obligations.CrcByteFoldsTheByte := by
  refine fun s b => ⟨exec_crcByte b s, fun hp hacc => ?_, answer_ok rfl s,
    fun rest h => answer_formatB_malformed (f := .crcByte) (fun _ => rfl) h s⟩
  have hkeep : s.setCrcAcc (crcStep s.params s.crcAcc 0) = s := by
    rw [hacc, crcStep_zero_zero hp, ← hacc]; rfl
  rw [exec_crcByte, hkeep]

/-- Settles O26. -/
theorem crcGetAnswersLowByteFirst : Obligations.CrcGetAnswersLowByteFirst := by
  refine fun s => ⟨?_, fun rest => answer_formatN (fun _ => rfl) rest s⟩
  rw [← le2_eq]
  exact exec_crcGet s

/-- Settles O27: format S has no malformed message (30_encoding.md R90). -/
theorem crc16AnswersLowByteFirst : Obligations.Crc16AnswersLowByteFirst := by
  refine fun s bytes => ⟨?_, answer_ok rfl s, ?empty, fun hp => ⟨fun n => ?zeros, ?one⟩⟩
  · rw [← le2_eq]
    exact exec_crc16 bytes s
  case empty => rw [exec_crc16, crc16_nil]; rfl
  case zeros => rw [exec_crc16, crc16_zeros hp]; rfl
  case one =>
    have hcrc : crc16 s.params [0x01] = 0x8005 :=
      (crcStep_zero _ _).trans ((tabRead_default hp _).trans (by decide))
    rw [exec_crc16, hcrc]; rfl

/-! ### The steps that clear, feed and read the CRC -/

theorem step_crcClr {s : State} {p : Party} {rest : List Input} (hp : s.params.Wf)
    (hin : s.inbox = .command p [0x20] :: rest) :
    step s = .next (replied ((s.setInbox rest).setCrcAcc 0) [0x00]) :=
  step_command hin (by decide) (Nat.le_of_succ_le (two_le_msgMax hp))

theorem step_crcByte {s : State} {p : Party} {b : Byte} {rest : List Input} (hp : s.params.Wf)
    (hin : s.inbox = .command p [0x21, b] :: rest) :
    step s = .next (replied ((s.setInbox rest).setCrcAcc (crcStep s.params s.crcAcc b)) [0x00]) :=
  step_command hin (Nat.le_add_left 1 1) (two_le_msgMax hp)

theorem step_crcGet {s : State} {p : Party} {rest : List Input} (hp : s.params.Wf)
    (hin : s.inbox = .command p [0x22] :: rest) :
    step s = .next (replied (s.setInbox rest) (0x00 :: le2 s.crcAcc)) :=
  step_command hin (by decide) (Nat.le_of_succ_le (two_le_msgMax hp))

/-! ### The CRC along a run -/

/-- No step changes the parameters. -/
theorem step_params {s t : State} (h : step s = .next t) : t.params = s.params := by
  rcases step_cases h with ⟨-, rfl⟩ | ⟨_, -, rfl⟩ | ⟨_, _, _, _, -, -, hexec⟩ | ⟨_, _, _, _, -, -, rfl⟩
  · rfl
  · rfl
  · exact (exec_params hexec).trans (State.setInbox_params _ _)
  · rfl

/-- A command that does not clear the CRC folds in what it feeds. -/
theorem step_crcAcc {s t : State} {x : Input} {rest : List Input} (hx : Continues .crcClr x)
    (hin : s.inbox = x :: rest) (h : step s = .next t) :
    t.crcAcc = crcBytes s.params s.crcAcc ([x].filterMap crcFeed) := by
  obtain ⟨p, m, rfl, hclr⟩ := hx
  cases hfeed : crcFeed (.command p m) with
  | some b =>
    obtain ⟨_, _, hx, hm⟩ := (crcFeed_eq_some _ b).mp hfeed
    cases hx
    rcases step_command_cases hin h with ⟨i, hi, hexec⟩ | ⟨e, he, -⟩
    · cases hm.symm.trans hi
      cases hexec
      simp [hfeed, crcBytes]
    · cases hm.symm.trans he
  | none =>
    rw [List.filterMap_cons_none hfeed]
    rcases step_command_cases hin h with ⟨i, hi, hexec⟩ | ⟨e, -, rfl⟩
    · by_contra hne
      rcases (effect_of_exec hexec).crcAcc_writer hne with rfl | ⟨b, rfl⟩
      · exact hclr hi
      · cases hfeed.symm.trans ((crcFeed_eq_some _ b).mpr ⟨p, m, rfl, hi⟩)
    · rfl

/-- Commands without `CRC.CLR` fold in the bytes their `CRC.BYTE`s feed, in their order. -/
theorem Takes.crcAcc {s t : State} {xs : List Input} (h : Takes s xs t) (hc : ∀ x ∈ xs, Continues .crcClr x) :
    t.crcAcc = crcBytes s.params s.crcAcc (xs.filterMap crcFeed) := by
  induction h with
  | nil s => rfl
  | @cons s u t x xs rest hin hstep _ ih =>
    obtain ⟨hx, hxs⟩ := List.forall_mem_cons.mp hc
    calc t.crcAcc
      _ = crcBytes u.params u.crcAcc (xs.filterMap crcFeed) := ih hxs
      _ = crcBytes s.params s.crcAcc ([x].filterMap crcFeed ++ xs.filterMap crcFeed) := by
        rw [step_params hstep, step_crcAcc hx hin hstep, crcBytes_append]
      _ = crcBytes s.params s.crcAcc ((x :: xs).filterMap crcFeed) := by rw [← List.filterMap_append]; rfl

/-- The state after `CRC.BYTE`s with these bytes, `rest` still to come. -/
def State.afterCrcBytes (s : State) (bytes : List Byte) (rest : List Input) : State :=
  { s with
    crcAcc := crcBytes s.params s.crcAcc bytes
    inbox := rest
    outbox := s.outbox ++ List.replicate bytes.length [0x00] }

/-- `CRC.BYTE`s alone fold in their bytes, answer `00` each, and change nothing else. -/
theorem takes_crcBytes {s : State} (hp : s.params.Wf) (fed : List (Party × Byte)) (rest : List Input) :
    Takes (s.setInbox ((fed.map fun x => Input.command x.1 [0x21, x.2]) ++ rest))
      (fed.map fun x => Input.command x.1 [0x21, x.2]) (s.afterCrcBytes (fed.map Prod.snd) rest) := by
  induction fed generalizing s with
  | nil =>
    have hnone : s.afterCrcBytes [] rest = s.setInbox rest := by
      simp [State.afterCrcBytes, State.setInbox, crcBytes]
    exact hnone.symm ▸ .nil _
  | cons x fed ih =>
    have htail := ih (s := replied (s.setCrcAcc (crcStep s.params s.crcAcc x.2)) [0x00]) hp
    have hafter : (replied (s.setCrcAcc (crcStep s.params s.crcAcc x.2)) [0x00]).afterCrcBytes (fed.map Prod.snd) rest =
        s.afterCrcBytes ((x :: fed).map Prod.snd) rest := by
      simp [State.afterCrcBytes, State.setCrcAcc, replied, crcBytes, List.replicate_succ]
    exact .cons rfl (step_crcByte hp rfl) (hafter ▸ htail)

/-- Settles O28: `CRC.CLR` brings the CRC to 0 whatever it held, the bytes fed are folded in, and `CRC.GET` answers
`crc16` of them, low byte first. -/
theorem streamedCrcEqualsOneShot : Obligations.StreamedCrcEqualsOneShot := by
  refine ⟨fun s p q fed hp hin => ?plain, fun s p q between hinv hd hin hc => ?mixed⟩
  case plain =>
    have hclr := step_crcClr hp hin
    have hfed := takes_crcBytes (s := replied (s.setCrcAcc 0) [0x00]) hp fed [.command q [0x22]]
    have hget := step_crcGet (s := (replied (s.setCrcAcc 0) [0x00]).afterCrcBytes (fed.map Prod.snd)
      [.command q [0x22]]) hp rfl
    have hrun := ((Takes.cons hin hclr hfed).append (takes_one rfl hget)).run_eq
    refine ⟨_, by simpa using hrun, ?_⟩
    simp [State.afterCrcBytes, replied, crc16, crcInit, le2, List.replicate_succ]
  case mixed =>
    have hclr := step_crcClr hinv.params_wf hin
    obtain ⟨hinv0, hparams0⟩ := hinv.after_step hclr
    obtain ⟨u, hbetween, hinvu, -, hinu⟩ := hinv0.takes (hd.after_step hclr hparams0) rfl
    obtain ⟨results, hlen, hout⟩ := hbetween.results hc
    have hget := step_crcGet hinvu.params_wf hinu
    have hrun := ((Takes.cons hin hclr hbetween).append (takes_one hinu hget)).run_eq
    have hcrc : u.crcAcc = crc16 s.params (between.filterMap crcFeed) := hbetween.crcAcc hc
    refine ⟨_, [0x00] :: results, by simpa using hrun, (hinvu.after_step hget).1, congrArg Nat.succ hlen, ?_⟩
    simp [hout, hcrc, le2]

end Sys2Proof.Machine
end

section
/-! Descriptor and configuration operations (42_descriptor_and_config.md): the active version, the motor identifier
and the register map. -/
namespace Sys2Proof.Machine

/-! ### The active version -/

theorem exec_pverSet_of_version {v : Byte} {w : Version} (h : versionOf v = some w) (s : State) :
    exec (.pverSet v) s = .next (replied (s.setPver w) [0x00]) := by
  simp [exec, execPverSet, h, finish_eq]

theorem exec_pverSet_of_noVersion {v : Byte} (h : versionOf v = none) (s : State) :
    exec (.pverSet v) s = .next (replied s [0x05]) := by
  simp [exec, execPverSet, h, raise_eq, errMessage, errCode]

theorem versionOf_eq_none {v : Byte} (h1 : v ≠ 1) (h2 : v ≠ 2) : versionOf v = none :=
  (if_neg h1).trans (if_neg h2)

theorem exec_pverGet (s : State) : exec .pverGet s = .next (replied s [0x00, versionByte s.pver]) := rfl

/-- Settles O29: the byte names version 1, version 2 or none. -/
theorem pverSetSelectsOneOrTwo : Obligations.PverSetSelectsOneOrTwo := by
  refine fun s v => ⟨?one, ?two, fun h1 h2 => exec_pverSet_of_noVersion (versionOf_eq_none h1 h2) s, answer_ok rfl s,
    fun rest h => answer_formatB_malformed (f := .pverSet) (fun _ => rfl) h s⟩
  case one => rintro rfl; exact exec_pverSet_of_version (v := 1) (w := .v1) rfl s
  case two => rintro rfl; exact exec_pverSet_of_version (v := 2) (w := .v2) rfl s

/-- Settles O30: `Reset` sets `PVER` to `PVER_RESET` (10_state.md R37). -/
theorem pverGetAnswersTheVersion : Obligations.PverGetAnswersTheVersion := fun s =>
  ⟨exec_pverGet s, exec_pverGet s.resetEvent, fun rest => answer_formatN (fun _ => rfl) rest s⟩

/-! ### The motor identifier -/

theorem exec_idGet (s : State) : exec .idGet s = .next (replied s [0x00, s.motorId]) := rfl

/-- No error is answered with the message of `Ok([])` (30_encoding.md R71). -/
theorem errMessage_ne_ok (e : Err) : errMessage e ≠ [0x00] := by
  rcases errMessage_code_or_status e with ⟨c, hpos, -, hc⟩ | ⟨st, hst⟩
  · rw [hc]
    rintro ⟨⟩
    exact absurd hpos (by decide)
  · simp [hst]

/-- `REG.SETID` either raises or builds its envelope and writes `MOTOR_ID` (45_framer_register.md R174). -/
theorem exec_regSetid_cases {n ack : Byte} {s t : State} (h : exec (.regSetid n ack) s = .next t) :
    (∃ e, t = replied s (errMessage e)) ∨ ∃ f r, t = replied ((s.openEnvelope f r).setMotorId n) [0x00] := by
  simp only [exec, execRegSetid] at h
  split at h
  · split at h
    next u hu =>
      obtain ⟨f, -, hb⟩ := (buildRequest_eq_ok _ _ _ _).mp hu
      obtain ⟨-, -, -, rfl⟩ := (envBuild_eq_ok _ _ _ _ _).mp hb
      cases h
      exact .inr ⟨f, _, rfl⟩
    next e _ => cases h; exact .inl ⟨e, rfl⟩
  · cases h; exact .inl ⟨.badOperand, rfl⟩

/-- The result message of `REG.SETID` tells whether `MOTOR_ID` was written. -/
theorem exec_regSetid_motorId {n ack : Byte} {s t : State} (h : exec (.regSetid n ack) s = .next t) :
    (t.outbox = s.outbox ++ [[0x00]] ∧ t.motorId = n) ∨
    (t.outbox ≠ s.outbox ++ [[0x00]] ∧ t.motorId = s.motorId) := by
  rcases exec_regSetid_cases h with ⟨e, rfl⟩ | ⟨f, r, rfl⟩
  · exact .inr ⟨by simpa using errMessage_ne_ok e, rfl⟩
  · exact .inl ⟨rfl, rfl⟩

/-- Only a `REG.SETID` that answers `00` writes `MOTOR_ID` (R127). -/
theorem exec_motorId {i : Instr} {s t : State} (h : exec i s = .next t)
    (hi : (∀ n ack, i ≠ .regSetid n ack) ∨ t.outbox ≠ s.outbox ++ [[0x00]]) : t.motorId = s.motorId := by
  by_contra hne
  obtain ⟨n, ack, rfl⟩ := (effect_of_exec h).motorId_writer hne
  rcases exec_regSetid_motorId h with ⟨hok, -⟩ | ⟨-, hkeep⟩
  · exact hi.elim (fun hother => hother n ack rfl) (fun hfailed => hfailed hok)
  · exact hne hkeep

/-- Settles O31: `ID.GET` answers `MOTOR_ID`, so each clause says what `MOTOR_ID` is. -/
theorem idGetAnswersTheIdentifier : Obligations.IdGetAnswersTheIdentifier := by
  refine fun s => ⟨exec_idGet s, exec_idGet s.resetEvent, fun n ack t h hok => ?renamed, fun i t h hi => ?kept,
    fun rest => answer_formatN (fun _ => rfl) rest s⟩
  case renamed =>
    rcases exec_regSetid_motorId h with ⟨-, hid⟩ | ⟨hfailed, -⟩
    · rw [exec_idGet, hid]
    · exact absurd hok hfailed
  case kept => rw [exec_idGet, exec_motorId h hi]

/-! ### The register map -/

theorem exec_mapRd_of_lt {k : Byte} {s : State} (h : k.toNat < 8) :
    exec (.mapRd k) s = .next (replied s [0x00, (s.params.regmap[k.toNat]).addressLow,
      (s.params.regmap[k.toNat]).addressHigh, (s.params.regmap[k.toNat]).length]) := by
  have hslot : regmapRead s.params k = some s.params.regmap[k.toNat] := Vector.getElem?_eq_getElem h
  simp [exec, execMapRd, hslot, finish_eq]

theorem exec_mapRd_of_ge {k : Byte} {s : State} (h : 8 ≤ k.toNat) :
    exec (.mapRd k) s = .next (replied s [0x05]) := by
  have hnone : regmapRead s.params k = none := Vector.getElem?_eq_none h
  simp [exec, execMapRd, hnone, raise_eq, errMessage, errCode]

theorem regmap_length_ne_zero {p : Params} (hp : p.Wf) {k : Nat} (h : k < 8) :
    (p.regmap[k]).length ≠ 0 :=
  (validDesc_eq_true _).mp (decide_eq_true (hp.regmap_length ⟨k, h⟩))

/-- Settles O32: the map is part of the parameters, which no operation writes. -/
theorem mapRdAnswersTheDescriptor : Obligations.MapRdAnswersTheDescriptor := fun s _ =>
  ⟨fun h => ⟨exec_mapRd_of_lt h, fun hp => regmap_length_ne_zero hp h⟩, exec_mapRd_of_ge,
    fun _ _ h => congrArg Params.regmap (exec_params h), answer_ok rfl s,
    fun _ h => answer_formatB_malformed (f := .mapRd) (fun _ => rfl) h s⟩

end Sys2Proof.Machine
end

section
/-! The packet envelope (43_packet_envelope.md): what `env_build` answers under each of its tests, and the five raw
operations on the slot. -/
namespace Sys2Proof.Machine

/-! ### The answers of `env_build` (R137), whichever operation calls it -/

section
variable {v : Version} {f : List Byte} {s : State}

theorem finishOr_envBuild_tooShort (r : U16) (hmin : f.length < minpkt s.params v) :
    finishOr (envBuild v f r s) s = .next (replied s [0x01]) := by
  rw [(envBuild_eq_error v f r s .invalidFrameSize).mpr (.inl ⟨hmin, rfl⟩)]
  exact finishOr_error _ s

theorem finishOr_envBuild_tooLong (r : U16) (hmin : minpkt s.params v ≤ f.length)
    (hmax : s.params.bufMax < f.length) : finishOr (envBuild v f r s) s = .next (replied s [0x04]) := by
  rw [(envBuild_eq_error v f r s .bufferCapacity).mpr (.inr (.inl ⟨hmin, hmax, rfl⟩))]
  exact finishOr_error _ s

theorem finishOr_envBuild_busy (r : U16) (hmin : minpkt s.params v ≤ f.length) (hmax : f.length ≤ s.params.bufMax)
    (hbusy : s.envState = .pending) : finishOr (envBuild v f r s) s = .next (replied s [0x02]) := by
  rw [(envBuild_eq_error v f r s .envelopeBusy).mpr (.inr (.inr ⟨hmin, hmax, hbusy, rfl⟩))]
  exact finishOr_error _ s

/-- A frame that passes the three tests is stored whole: `BUF_MAX` bounds its length below 2^16. -/
theorem finishOr_envBuild_built (r : U16) (hp : s.params.Wf) (hmin : minpkt s.params v ≤ f.length)
    (hmax : f.length ≤ s.params.bufMax) (hfree : s.envState ≠ .pending) :
    ∃ t, finishOr (envBuild v f r s) s = .next t ∧ Built s t f r.toNat := by
  rw [(envBuild_eq_ok v f r s _).mpr ⟨hmin, hmax, hfree, rfl⟩]
  exact ⟨_, finishOr_ok s _, built_of_openEnvelope s f r (hmax.trans hp.bufMax_le)⟩

end

/-! ### The two raw constructors -/

theorem exec_envNewa (bytes : List Byte) (s : State) :
    exec (.envNewa bytes) s = finishOr (envBuild s.pver bytes 0 s) s := rfl

/-- Settles O33: `env_build` with response size 0 and the minimum of the active version (R136). -/
theorem envNewaBuildsVariantA : Obligations.EnvNewaBuildsVariantA := by
  intro s bytes hp
  rw [exec_envNewa]
  exact ⟨finishOr_envBuild_tooShort 0, finishOr_envBuild_tooLong 0, finishOr_envBuild_busy 0,
    finishOr_envBuild_built 0 hp, (answer_ok rfl s).trans (exec_envNewa bytes s)⟩

theorem exec_envNewb_tooShort {bytes : List Byte} {s : State} (resp : U16)
    (hmin : bytes.length < minpkt s.params s.pver) :
    exec (.envNewb resp bytes) s = .next (replied s [0x01]) :=
  (if_pos hmin).trans (raise_eq .invalidFrameSize s)

theorem exec_envNewb_zero {bytes : List Byte} {s : State} (hmin : minpkt s.params s.pver ≤ bytes.length) :
    exec (.envNewb 0 bytes) s = .next (replied s [0x05]) :=
  (if_neg (Nat.not_lt.mpr hmin)).trans ((if_pos rfl).trans (raise_eq .badOperand s))

/-- Past its own two tests `ENV.NEWB` is `env_build` (R139). -/
theorem exec_envNewb_of_ne_zero {resp : U16} {bytes : List Byte} {s : State}
    (hmin : minpkt s.params s.pver ≤ bytes.length) (hresp : resp ≠ 0) :
    exec (.envNewb resp bytes) s = finishOr (envBuild s.pver bytes resp s) s :=
  (if_neg (Nat.not_lt.mpr hmin)).trans (if_neg hresp)

/-- A message of format SW with fewer than two operand bytes is illegal (30_encoding.md R90). -/
theorem answer_formatSW_malformed {op : Byte} {f : U16 → List Byte → Instr}
    (hdec : ∀ rest, decode (op :: rest) = decodeSW op f rest) {rest : List Byte} (h : rest.length < 2) (s : State) :
    answer (op :: rest) s = .next (replied s [0x06]) :=
  answer_error ((hdec rest).trans (decodeSW_malformed op f h)) s

/-- Settles O34: the test of `resp` stands between `env_build`'s size test, made before it, and its other two. -/
theorem envNewbBuildsVariantB : Obligations.EnvNewbBuildsVariantB := by
  refine fun s resp bytes hp => ⟨exec_envNewb_tooShort resp, ?zero, fun hmin hresp hmax => ?tooLong,
    fun hmin hresp hmax hbusy => ?busy, fun hmin hresp hmax hfree => ?built, ?message,
    fun rest h => answer_formatSW_malformed (f := .envNewb) (fun _ => rfl) h s⟩
  case zero => rintro hmin rfl; exact exec_envNewb_zero hmin
  case tooLong => exact (exec_envNewb_of_ne_zero hmin hresp).trans (finishOr_envBuild_tooLong resp hmin hmax)
  case busy => exact (exec_envNewb_of_ne_zero hmin hresp).trans (finishOr_envBuild_busy resp hmin hmax hbusy)
  case built =>
    rw [exec_envNewb_of_ne_zero hmin hresp]
    exact finishOr_envBuild_built resp hp hmin hmax hfree
  case message => rintro l h rfl; exact answer_ok rfl s

/-! ### Reading the envelope -/

theorem exec_envRead_of_memRead {s : State} {bytes : List Byte} (hpending : s.envState = .pending)
    (hread : memRead s 0 s.pktSize.toNat = .ok bytes) :
    exec .envRead s = .next (replied s (0x00 :: (le2 s.respSize ++ bytes))) := by
  simp only [exec, execEnvRead, hpending, hread, if_true, finish_eq]

theorem exec_envRead_of_not_pending {s : State} (h : s.envState ≠ .pending) :
    exec .envRead s = .next (replied s [0x03]) :=
  (if_neg h).trans (raise_eq .noEnvelope s)

/-- A read from the buffer's start succeeds exactly with the bytes the buffer holds there, inside `BUF_MAX`. -/
theorem memRead_zero_eq_ok (s : State) (n : Nat) (bytes : List Byte) :
    memRead s 0 n = .ok bytes ↔
      n ≤ s.params.bufMax ∧ bytes.length = n ∧ ∀ a, a < n → memGet s.buf a = bytes[a]? := by
  simp only [memRead_eq_ok, memBytes_eq_some, Nat.zero_add]

/-- Settles O37: under the invariant the buffer holds every byte of a pending frame, so `MemRead` gives them. -/
theorem envReadAnswersTheFrame : Obligations.EnvReadAnswersTheFrame := by
  refine fun s hinv => ⟨fun hpending => ?pending, exec_envRead_of_not_pending,
    fun rest => answer_formatN (fun _ => rfl) rest s⟩
  obtain ⟨bytes, hread⟩ := hinv.memRead_pending hpending
  obtain ⟨-, hlen, hget⟩ := (memRead_zero_eq_ok s _ bytes).mp hread
  exact ⟨bytes, hlen, hget, exec_envRead_of_memRead hpending hread⟩

theorem Built.envState {s t : State} {frame : List Byte} {resp : Nat} (h : Built s t frame resp) :
    t.envState = .pending :=
  congrArg State.envState h.others

/-- What `env_build` stored is what `MemRead` of `PKT_SIZE` bytes gives. -/
theorem Built.memRead_eq {s t : State} {frame : List Byte} {resp : Nat} (h : Built s t frame resp)
    (hmax : frame.length ≤ t.params.bufMax) : memRead t 0 t.pktSize.toNat = .ok frame := by
  rw [h.size]
  exact (memRead_zero_eq_ok t _ frame).mpr ⟨hmax, rfl, h.stored⟩

/-- Settles O38. -/
theorem builtEnvelopeReadsBack : Obligations.BuiltEnvelopeReadsBack := by
  intro s t frame resp hbuilt hmax
  rw [exec_envRead_of_memRead hbuilt.envState (hbuilt.memRead_eq hmax), le2_eq, hbuilt.response]
  rfl

/-! ### Releasing the envelope, and the slot's state -/

theorem exec_envConsume_of_pending {s : State} (h : s.envState = .pending) :
    exec .envConsume s = .next (replied s.closeEnvelope [0x00]) :=
  (if_pos h).trans (finish_eq [] s.closeEnvelope)

theorem exec_envConsume_of_not_pending {s : State} (h : s.envState ≠ .pending) :
    exec .envConsume s = .next (replied s [0x03]) :=
  (if_neg h).trans (raise_eq .noEnvelope s)

/-- Settles O35: a release leaves the slot Consumed, so a second one finds it not Pending. -/
theorem envConsumeReleasesOnce : Obligations.EnvConsumeReleasesOnce := fun s =>
  ⟨fun hpending => ⟨replied s.closeEnvelope [0x00], exec_envConsume_of_pending hpending, rfl,
      exec_envConsume_of_not_pending (by simp)⟩,
    exec_envConsume_of_not_pending, fun rest => answer_formatN (fun _ => rfl) rest s⟩

theorem exec_envStat (s : State) :
    exec .envStat s = .next (replied s (0x00 :: envCode s.envState :: (le2 s.pktSize ++ le2 s.respSize))) := rfl

theorem envCode_of_not_pending {e : EnvState} (h : e ≠ .pending) : envCode e = if e = .empty then 0 else 2 := by
  cases e with
  | empty => rfl
  | pending => exact absurd rfl h
  | consumed => rfl

/-- Settles O36: the invariant keeps both sizes at 0 outside Pending, and `Reset` sets them to 0 (10_state.md R37). -/
theorem envStatAnswersStateAndSizes : Obligations.EnvStatAnswersStateAndSizes := by
  refine fun s => ⟨?always, fun hinv hidle => ?idle, ?reset,
    fun rest => answer_formatN (fun _ => rfl) rest s⟩
  case always =>
    rw [exec_envStat, le2_eq, le2_eq]
    rfl
  case idle =>
    obtain ⟨hpkt, hresp⟩ := hinv.idle_size hidle
    rw [exec_envStat, hpkt, hresp, envCode_of_not_pending hidle]
    rfl
  case reset =>
    rw [exec_envStat, State.resetEvent_envState, State.resetEvent_pktSize, State.resetEvent_respSize]
    rfl

end Sys2Proof.Machine
end

section
/-! The generic framer (44_framer_generic.md): the two wire frames byte by byte, the operations that build them, and
the check status bytes of received frames, one defect per bit. -/
namespace Sys2Proof.Machine

/-! ### Reading a byte sequence from both ends -/

theorem slice_zero (s : List Byte) (n : Nat) : slice s 0 n = s.take n := rfl

theorem slice_to_length (s : List Byte) (a : Nat) : slice s a s.length = s.drop a := by
  rw [slice, List.take_length]

theorem slice_to_last (s : List Byte) (a : Nat) : slice s a (s.length - 1) = s.dropLast.drop a := by
  rw [slice, List.dropLast_eq_take]

/-- Inside the sequence `byteAt` is the byte there, so no rule meets the value outside (log 13). -/
theorem byteAt_eq_getElem {s : List Byte} {i : Nat} (h : i < s.length) : byteAt s i = s[i] :=
  List.getD_eq_getElem s 0 h

theorem byteAt_eq_iff {s : List Byte} {i : Nat} (h : i < s.length) (b : Byte) : byteAt s i = b ↔ s[i]? = some b := by
  rw [byteAt_eq_getElem h, List.getElem?_eq_getElem h, Option.some_inj]

theorem byteAt_last_eq_iff {s : List Byte} (h : 1 ≤ s.length) (b : Byte) :
    byteAt s (s.length - 1) = b ↔ s.getLast? = some b := by
  rw [List.getLast?_eq_getElem?, byteAt_eq_iff (by omega)]

theorem u16le_eq_iff (lo hi : Byte) (v : U16) : u16le lo hi = v ↔ [lo, hi] = le2 v := by
  constructor
  · rintro rfl
    rw [le2, lo8_u16le, hi8_u16le]
  · intro h
    obtain ⟨rfl, rfl⟩ : lo = lo8 v ∧ hi = hi8 v := by simpa [le2] using h
    exact u16le_lo8_hi8 v

theorem drop_length_sub_two {s : List Byte} (h : 2 ≤ s.length) :
    s.drop (s.length - 2) = [byteAt s (s.length - 2), byteAt s (s.length - 1)] := by
  have hlast : s.length - 2 + 1 = s.length - 1 := by omega
  have hend : s.length - 1 + 1 = s.length := by omega
  rw [List.drop_eq_getElem_cons (by omega), hlast, List.drop_eq_getElem_cons (by omega), hend, List.drop_length,
    byteAt_eq_getElem, byteAt_eq_getElem]

/-- The two footer bytes read low byte first are `v` exactly when the sequence ends in `le2 v`. -/
theorem footer_eq_iff {s : List Byte} (h : 2 ≤ s.length) (v : U16) :
    u16le (byteAt s (s.length - 2)) (byteAt s (s.length - 1)) = v ↔ s.drop (s.length - 2) = le2 v := by
  rw [u16le_eq_iff, drop_length_sub_two h]

/-! ### The v1 frame (R150) -/

theorem frame1_eq (p : Params) (body : List Byte) :
    frame1 p body = frame1Head body ++ [csum1 ((frame1Head body).drop p.v1SumStart)] := by
  rw [frame1, slice_to_length]

/-- The two header bytes `FF` add 2 less than a multiple of 256. -/
theorem csum1_frame1Head (body : List Byte) : csum1 (frame1Head body) = csum1 body + 2 := by
  have hhead : byteSum (frame1Head body) = 510 + byteSum body := byteSum_append v1Header body
  apply BitVec.eq_of_toNat_eq
  rw [BitVec.toNat_add, csum1_toNat, csum1_toNat, hhead]
  change _ = (_ + 2) % 256
  omega

/-- Settles O40: dropping 2 bytes of `FF FF ++ body` leaves the body, dropping 0 leaves the header too. -/
theorem frame1IsHeaderBodyChecksum : Obligations.Frame1IsHeaderBodyChecksum := by
  refine fun p q body => ⟨frame1_eq p body, frame1_length p body, fun hp hq => ⟨csum1 body, ?_, ?_⟩⟩
  · rw [frame1_eq, hq]
    rfl
  · rw [frame1_eq, hp, List.drop_zero, csum1_frame1Head]
    rfl

/-! ### The v2 frame (R153) -/

theorem frame2Head_eq {params : List Byte} (h : params.length + 3 ≤ 65535) (id instr : Byte) :
    frame2Head id instr params = [0xFF, 0xFF, 0xFD, 0x00, id, BitVec.ofNat 8 ((params.length + 3) % 256),
      BitVec.ofNat 8 ((params.length + 3) / 256), instr] ++ params := by
  rw [frame2Head, le2_eq, BitVec.toNat_ofNat, Nat.mod_eq_of_lt (Nat.lt_succ_of_le h)]
  rfl

theorem frame2_length_sub_two (p : Params) (id instr : Byte) (params : List Byte) :
    (frame2 p id instr params).length - 2 = (frame2Head id instr params).length := by
  rw [frame2_length, frame2Head_length]
  omega

/-- A v2 frame without its footer is what its CRC was computed over. -/
theorem frame2_take (p : Params) (id instr : Byte) (params : List Byte) :
    (frame2 p id instr params).take ((frame2 p id instr params).length - 2) = frame2Head id instr params := by
  rw [frame2_length_sub_two, frame2, List.take_left]

theorem frame2_drop (p : Params) (id instr : Byte) (params : List Byte) :
    (frame2 p id instr params).drop ((frame2 p id instr params).length - 2) =
      le2 (crc16 p (frame2Head id instr params)) := by
  rw [frame2_length_sub_two, frame2, List.drop_left]

/-- The length bytes of a v2 frame in its domain, read low byte first. -/
theorem frame2_lengthValue (p : Params) (id instr : Byte) {params : List Byte} (h : params.length + 3 ≤ 65535) :
    (byteAt (frame2 p id instr params) 5).toNat + 256 * (byteAt (frame2 p id instr params) 6).toNat =
      params.length + 3 :=
  calc _ = (u16le (lo8 (BitVec.ofNat 16 (params.length + 3))) (hi8 (BitVec.ofNat 16 (params.length + 3)))).toNat :=
        (u16le_toNat _ _).symm
    _ = params.length + 3 := by
        rw [u16le_lo8_hi8, BitVec.toNat_ofNat, Nat.mod_eq_of_lt (Nat.lt_succ_of_le h)]

/-- Settles O42. -/
theorem frame2IsHeaderLengthParametersCrc : Obligations.Frame2IsHeaderLengthParametersCrc := by
  intro p id instr params h
  dsimp only
  rw [← frame2Head_eq h]
  refine ⟨rfl, frame2_length p id instr params, Eq.symm ?_⟩
  rw [slice_zero, frame2_take, footer_eq_iff (by simp)]
  exact frame2_drop p id instr params

/-! ### The operations that build frames -/

theorem exec_f1Frame (resp : U16) (body : List Byte) (s : State) :
    exec (.f1Frame resp body) s = finishOr (envBuild .v1 (frame1 s.params body) resp s) s := rfl

/-- Settles O41: `env_build` of the v1 frame against the v1 minimum. -/
theorem f1FrameBuildsTheFrame : Obligations.F1FrameBuildsTheFrame := by
  intro s resp body hp
  rw [exec_f1Frame, ← frame1_length s.params body, ← minpkt_v1]
  refine ⟨finishOr_envBuild_tooShort resp, finishOr_envBuild_tooLong resp, finishOr_envBuild_busy resp,
    finishOr_envBuild_built resp hp, ?message,
    fun rest h => answer_formatSW_malformed (f := .f1Frame) (fun _ => rfl) h s⟩
  rintro l h rfl
  exact (answer_ok rfl s).trans (exec_f1Frame (u16le l h) body s)

section
variable (id instr : Byte) (resp : U16) {params : List Byte} (s : State)

theorem exec_f2Frame_tooShort (h : params.length < 2) :
    exec (.f2Frame id instr resp params) s = .next (replied s [0x01]) :=
  (if_pos (Nat.add_lt_add_right h 10)).trans (raise_eq .invalidFrameSize s)

theorem exec_f2Frame_badOperand (h : 65532 < params.length) :
    exec (.f2Frame id instr resp params) s = .next (replied s [0x05]) :=
  have hmin : ¬ params.length + 10 < v2MinPacket := by rw [v2MinPacket]; omega
  (if_neg hmin).trans ((if_pos (Nat.add_lt_add_right h 3)).trans (raise_eq .badOperand s))

/-- Past its own two tests `F2.FRAME` is `env_build` (R152). -/
theorem exec_f2Frame_of_domain (hmin : 2 ≤ params.length) (hmax : params.length ≤ 65532) :
    exec (.f2Frame id instr resp params) s =
      finishOr (envBuild .v2 (frame2 s.params id instr params) resp s) s :=
  have hsize : ¬ params.length + 10 < v2MinPacket := by rw [v2MinPacket]; omega
  (if_neg hsize).trans (if_neg (Nat.not_lt.mpr (Nat.add_le_add_right hmax 3)))

/-- Two parameters give the 12 bytes that `env_build` asks of a v2 frame. -/
theorem minpkt_le_frame2_length (hmin : 2 ≤ params.length) :
    minpkt s.params .v2 ≤ (frame2 s.params id instr params).length := by
  rw [minpkt_v2, frame2_length]
  omega

end

/-- Settles O43: a frame that fits `BUF_MAX` is inside the domain, because `BUF_MAX` is at most 65535. -/
theorem f2FrameBuildsTheFrame : Obligations.F2FrameBuildsTheFrame := by
  intro s id instr resp params hp
  have hdomain (hfit : params.length + 10 ≤ s.params.bufMax) : params.length ≤ 65532 := by
    have := hp.bufMax_le
    omega
  refine ⟨exec_f2Frame_tooShort id instr resp s, exec_f2Frame_badOperand id instr resp s,
    fun hmin hmax hcap => ?tooLong, fun hmin hfit hbusy => ?busy, fun hmin hfit hfree => ?built, ?message,
    fun rest h => ?malformed⟩
  case tooLong =>
    exact (exec_f2Frame_of_domain id instr resp s hmin hmax).trans
      (finishOr_envBuild_tooLong resp (minpkt_le_frame2_length id instr s hmin) (by rwa [frame2_length]))
  case busy =>
    exact (exec_f2Frame_of_domain id instr resp s hmin (hdomain hfit)).trans
      (finishOr_envBuild_busy resp (minpkt_le_frame2_length id instr s hmin) (by rwa [frame2_length]) hbusy)
  case built =>
    rw [exec_f2Frame_of_domain id instr resp s hmin (hdomain hfit)]
    exact finishOr_envBuild_built resp hp (minpkt_le_frame2_length id instr s hmin) (by rwa [frame2_length]) hfree
  case message => rintro l h rfl; exact answer_ok rfl s
  case malformed => exact answer_error ((decode_f2Frame rest).trans (decodeF2_malformed 0x51 h)) s

/-! ### The check status bytes (R155): which defect each bit reports -/

/-- A flag with the mask of one bit sets that bit, and no other, when the defect is there. -/
theorem flagIf_twoPow_getLsbD (d : Bool) {k : Nat} (hk : k < 8) (i : Nat) :
    (flagIf d (BitVec.twoPow 8 k)).getLsbD i = true ↔ i = k ∧ d = true := by
  cases d <;> simp [flagIf, BitVec.getLsbD_twoPow, hk, eq_comm]

theorem stBadHeader_eq : stBadHeader = BitVec.twoPow 8 1 := by decide
theorem stNotStatus_eq : stNotStatus = BitVec.twoPow 8 2 := by decide
theorem stBadCheck_eq : stBadCheck = BitVec.twoPow 8 3 := by decide
theorem stBadLength_eq : stBadLength = BitVec.twoPow 8 4 := by decide
theorem stAlert_eq : stAlert = BitVec.twoPow 8 7 := by decide

/-- The defect that bit `i` of the status byte of a long enough v1 status frame reports (R156). -/
def Defect1 (p : Params) (s : List Byte) : Nat → Prop
  | 1 => s[0]? ≠ some 0xFF ∨ s[1]? ≠ some 0xFF
  | 3 => s.getLast? ≠ some (csum1 (s.dropLast.drop p.v1SumStart))
  | 4 => (byteAt s 3).toNat ≠ s.length - 4
  | _ => False

/-- The defect that bit `i` of the status byte of a long enough v2 status frame reports (R157). -/
def Defect2 (p : Params) (s : List Byte) : Nat → Prop
  | 1 => s.take 4 ≠ [0xFF, 0xFF, 0xFD, 0x00]
  | 2 => s[7]? ≠ some 0x55
  | 3 => s.drop (s.length - 2) ≠ le2 (crc16 p (s.take (s.length - 2)))
  | 4 => (byteAt s 5).toNat + 256 * (byteAt s 6).toNat ≠ s.length - 7
  | 7 => (byteAt s p.v2ErrOffset).getLsbD 7 = true
  | _ => False

theorem check1_tooShort {s : List Byte} (p : Params) (h : s.length < 6) : check1 p s = 0x01 := if_pos h

theorem check2_tooShort {p : Params} {s : List Byte} (h : s.length < p.v2DataOffset + 2) : check2 p s = 0x01 :=
  if_pos h

/-- Every bit of the status byte at once: each mask is one bit, and the bits without a mask are 0. -/
theorem check1_getLsbD {s : List Byte} (p : Params) (h : 6 ≤ s.length) (i : Nat) :
    (check1 p s).getLsbD i = true ↔ Defect1 p s i := by
  have hflags : (check1 p s).getLsbD i = true ↔
      (i = 1 ∧ (s[0]? ≠ some 0xFF ∨ s[1]? ≠ some 0xFF)) ∨
      (i = 3 ∧ s.getLast? ≠ some (csum1 (s.dropLast.drop p.v1SumStart))) ∨
      (i = 4 ∧ (byteAt s 3).toNat ≠ s.length - 4) := by
    rw [check1, v1MinStatus, if_neg (Nat.not_lt.mpr h), stBadHeader_eq, stBadCheck_eq, stBadLength_eq]
    simp only [BitVec.getLsbD_or, Bool.or_eq_true, flagIf_twoPow_getLsbD, Nat.reduceLT, bne_iff_ne, ne_eq,
      byteAt_eq_iff (show 0 < s.length by omega), byteAt_eq_iff (show 1 < s.length by omega),
      byteAt_last_eq_iff (show 1 ≤ s.length by omega), slice_to_last, v1OffLen, or_assoc]
  rw [hflags]
  unfold Defect1
  split <;> simp_all

theorem and_v2Alert_ne_zero (b : Byte) : b &&& v2Alert ≠ 0 ↔ b.getLsbD 7 = true := by
  rw [show v2Alert = BitVec.twoPow 8 7 from stAlert_eq, BitVec.and_twoPow]
  cases b.getLsbD 7 <;> decide

/-- As `check1_getLsbD`; the constraints on the offsets give the 8 bytes that the tests read (log 10). -/
theorem check2_getLsbD {p : Params} (hp : p.Wf) {s : List Byte} (h : p.v2DataOffset + 2 ≤ s.length) (i : Nat) :
    (check2 p s).getLsbD i = true ↔ Defect2 p s i := by
  have hlen : 8 ≤ s.length := by
    obtain ⟨herr, hdata⟩ := hp.errOffset
    omega
  have hflags : (check2 p s).getLsbD i = true ↔
      (i = 1 ∧ s.take 4 ≠ [0xFF, 0xFF, 0xFD, 0x00]) ∨ (i = 2 ∧ s[7]? ≠ some 0x55) ∨
      (i = 3 ∧ s.drop (s.length - 2) ≠ le2 (crc16 p (s.take (s.length - 2)))) ∨
      (i = 4 ∧ (byteAt s 5).toNat + 256 * (byteAt s 6).toNat ≠ s.length - 7) ∨
      (i = 7 ∧ (byteAt s p.v2ErrOffset).getLsbD 7 = true) := by
    rw [check2, v2MinStatus, v2CrcLen, if_neg (Nat.not_lt.mpr h), stBadHeader_eq, stNotStatus_eq, stBadCheck_eq,
      stBadLength_eq, stAlert_eq]
    simp only [BitVec.getLsbD_or, Bool.or_eq_true, flagIf_twoPow_getLsbD, Nat.reduceLT, bne_iff_ne,
      and_v2Alert_ne_zero, ne_eq, byteAt_eq_iff (show 7 < s.length by omega),
      footer_eq_iff (show 2 ≤ s.length by omega), slice_zero, u16le_toNat, v2Header, v2OffInstr,
      v2InstrStatus, v2OffLenL, v2OffLenH, or_assoc]
  rw [hflags]
  unfold Defect2
  split <;> simp_all

/-! ### Built frames have no defect of their own making -/

/-- A v1 frame that is too short, or long enough, has bit 3 clear: its last byte is its checksum. -/
theorem check1_frame1_getLsbD_three (p : Params) (body : List Byte) :
    (check1 p (frame1 p body)).getLsbD 3 = false := by
  by_cases hlen : (frame1 p body).length < 6
  · rw [check1_tooShort p hlen]
    rfl
  · have hcheck : ¬ Defect1 p (frame1 p body) 3 := by
      rw [Defect1, frame1_eq, List.getLast?_concat, List.dropLast_concat]
      exact fun h => h rfl
    exact Bool.eq_false_iff.mpr (mt (check1_getLsbD p (Nat.not_lt.mp hlen) 3).mp hcheck)

theorem not_defect2_frame2 (p : Params) (id : Byte) {params : List Byte} (h : params.length + 3 ≤ 65535) {i : Nat}
    (hi : i = 1 ∨ i = 2 ∨ i = 3 ∨ i = 4) : ¬ Defect2 p (frame2 p id 0x55 params) i := by
  rcases hi with rfl | rfl | rfl | rfl
  · exact fun hheader => hheader rfl
  · exact fun hstatus => hstatus rfl
  · rw [Defect2, frame2_take, frame2_drop]
    exact fun hcrc => hcrc rfl
  · rw [Defect2, frame2_lengthValue p id _ h, frame2_length]
    exact fun hlength => hlength rfl

/-- A v2 status frame has bits 1 to 4 clear, too short or not: the byte `01` has them clear as well. -/
theorem check2_frame2_getLsbD {p : Params} (hp : p.Wf) (id : Byte) {params : List Byte}
    (h : params.length + 3 ≤ 65535) {i : Nat} (hi : i = 1 ∨ i = 2 ∨ i = 3 ∨ i = 4) :
    (check2 p (frame2 p id 0x55 params)).getLsbD i = false := by
  by_cases hlen : (frame2 p id 0x55 params).length < p.v2DataOffset + 2
  · rw [check2_tooShort hlen]
    rcases hi with rfl | rfl | rfl | rfl <;> rfl
  · exact Bool.eq_false_iff.mpr
      (mt (check2_getLsbD hp (Nat.not_lt.mp hlen) i).mp (not_defect2_frame2 p id h hi))

/-! ### The two check operations -/

theorem exec_f1Check (bytes : List Byte) (s : State) :
    exec (.f1Check bytes) s = .next (replied s [0x00, check1 s.params bytes]) := rfl

theorem exec_f2Check (bytes : List Byte) (s : State) :
    exec (.f2Check bytes) s = .next (replied s [0x00, check2 s.params bytes]) := rfl

/-- Settles O44: the bits are those of `Defect1`. -/
theorem f1CheckReportsEachDefect : Obligations.F1CheckReportsEachDefect := by
  refine fun s bytes _ => ⟨check1 s.params bytes, exec_f1Check bytes s, answer_ok rfl s, ?built,
    check1_tooShort s.params, fun hlen => ?bits⟩
  case built => rintro body rfl; exact check1_frame1_getLsbD_three s.params body
  case bits =>
    have hbit := check1_getLsbD s.params hlen
    have hclear (i : Nat) (h : ¬ Defect1 s.params bytes i) : (check1 s.params bytes).getLsbD i = false :=
      Bool.eq_false_iff.mpr (mt (hbit i).mp h)
    exact ⟨hbit 1, hbit 3, hbit 4, hclear 0 id, hclear 2 id, hclear 5 id, hclear 6 id, hclear 7 id⟩

/-- Settles O45: the bits are those of `Defect2`. -/
theorem f2CheckReportsEachDefect : Obligations.F2CheckReportsEachDefect := by
  refine fun s bytes hp => ⟨check2 s.params bytes, exec_f2Check bytes s, answer_ok rfl s, ?built,
    check2_tooShort, fun hlen => ?bits⟩
  case built =>
    rintro id params rfl hdomain
    have hclear {i : Nat} := check2_frame2_getLsbD (i := i) hp id hdomain
    exact ⟨hclear (by decide), hclear (by decide), hclear (by decide), hclear (by decide)⟩
  case bits =>
    have hbit := check2_getLsbD hp hlen
    have hclear (i : Nat) (h : ¬ Defect2 s.params bytes i) : (check2 s.params bytes).getLsbD i = false :=
      Bool.eq_false_iff.mpr (mt (hbit i).mp h)
    exact ⟨hbit 1, hbit 2, hbit 3, hbit 4, Bool.eq_iff_iff.mpr (hbit 7), hclear 0 id, hclear 5 id, hclear 6 id⟩

end Sys2Proof.Machine
end

section
/-! The requests of the register framer (45_framer_register.md R170 to R172): the frames they build, what `env_build`
makes of such a frame, the response sizes, and `REG.RD`. -/
namespace Sys2Proof.Machine

/-! ### The frames of requests -/

/-- `f` is a request for `d` of the active version (R172 to R174, 30_encoding.md R77, R78): the current identifier and
the address of `d`, an instruction and, after the address, at least one byte. Read and write requests differ only in
`instr` and in what follows the address. -/
inductive RequestFrame (s : State) (d : Descriptor) : List Byte → Prop where
  | v2 (instr : Byte) (rest : List Byte) (hv : s.pver = .v2) (hinstr : instr = 0x04 ∨ instr = 0x03)
      (hpos : 1 ≤ rest.length) (hmax : rest.length ≤ 255) :
      RequestFrame s d (frame2 s.params s.motorId instr (d.addressLow :: d.addressHigh :: rest))
  | v1 (len instr : Byte) (rest : List Byte) (hv : s.pver = .v1) (hpos : 1 ≤ rest.length)
      (hlen : len.toNat = rest.length + 3) :
      RequestFrame s d (frame1 s.params (s.motorId :: len :: instr :: d.addressLow :: rest))

/-- No request is shorter than the minimum packet of its version: the constraints bound `V1_MIN_PACKET` by 8 (R176,
log 10). -/
theorem RequestFrame.minpkt_le {s : State} {d : Descriptor} {f : List Byte} (hf : RequestFrame s d f)
    (hp : s.params.Wf) : minpkt s.params s.pver ≤ f.length := by
  cases hf with
  | v2 instr rest hv hinstr hpos hmax =>
    rw [hv, minpkt_v2, frame2_length, List.length_cons, List.length_cons]
    omega
  | v1 len instr rest hv hpos hlen =>
    have := hp.v1MinPacket.2
    rw [hv, minpkt_v1, frame1_length]
    simp only [List.length_cons]
    omega

/-- The bytes of a v2 request (R177). -/
theorem RequestFrame.bytes_v2 {s : State} {d : Descriptor} {f : List Byte} (hf : RequestFrame s d f)
    (hv : s.pver = .v2) :
    crc16 s.params (slice f 0 (f.length - 2)) = u16le (byteAt f (f.length - 2)) (byteAt f (f.length - 1)) ∧
      slice f 0 4 = [0xFF, 0xFF, 0xFD, 0x00] ∧ byteAt f 4 = s.motorId ∧
      (u16le (byteAt f 5) (byteAt f 6)).toNat = f.length - 7 ∧
      (byteAt f 7 = 0x04 ∨ byteAt f 7 = 0x03) ∧ byteAt f 8 = d.addressLow ∧ byteAt f 9 = d.addressHigh := by
  cases hf with
  | v1 len instr rest hv' => cases hv.symm.trans hv'
  | v2 instr rest _ hinstr hpos hmax =>
    have hdomain : (d.addressLow :: d.addressHigh :: rest).length + 3 ≤ 65535 := by
      simp only [List.length_cons]
      omega
    obtain ⟨-, hlength, hcrc⟩ := frame2IsHeaderLengthParametersCrc s.params s.motorId instr _ hdomain
    refine ⟨hcrc, rfl, rfl, ?_, hinstr, rfl, rfl⟩
    rw [u16le_toNat, frame2_lengthValue _ _ _ hdomain, hlength]
    omega

/-- The bytes of a v1 request (R177, and R172 to R174 for identifier and address). -/
theorem RequestFrame.bytes_v1 {s : State} {d : Descriptor} {f : List Byte} (hf : RequestFrame s d f)
    (hv : s.pver = .v1) :
    slice f 0 2 = [0xFF, 0xFF] ∧ byteAt f (f.length - 1) = csum1 (slice f s.params.v1SumStart (f.length - 1)) ∧
      (byteAt f 3).toNat = f.length - 4 ∧ byteAt f 2 = s.motorId ∧ byteAt f 5 = d.addressLow := by
  cases hf with
  | v2 instr rest hv' => cases hv.symm.trans hv'
  | v1 len instr rest _ hpos hlen =>
    refine ⟨rfl, ?footer, ?length, rfl, rfl⟩
    case footer =>
      rw [byteAt_last_eq_iff (by simp), slice_to_last, frame1_eq, List.getLast?_concat, List.dropLast_concat]
    case length =>
      rw [frame1_length]
      exact hlen

/-! ### `env_build` on a request -/

section
variable {s : State} {d : Descriptor} {f : List Byte} (n : Nat)

theorem RequestFrame.build_tooLong (hf : RequestFrame s d f) (hp : s.params.Wf) (hcap : s.params.bufMax < f.length) :
    buildRequest (.ok f) n s = .error .bufferCapacity :=
  (envBuild_eq_error _ _ _ _ _).mpr (.inr (.inl ⟨hf.minpkt_le hp, hcap, rfl⟩))

theorem RequestFrame.build_busy (hf : RequestFrame s d f) (hp : s.params.Wf) (hfit : f.length ≤ s.params.bufMax)
    (hbusy : s.envState = .pending) : buildRequest (.ok f) n s = .error .envelopeBusy :=
  (envBuild_eq_error _ _ _ _ _).mpr (.inr (.inr ⟨hf.minpkt_le hp, hfit, hbusy, rfl⟩))

theorem RequestFrame.build_free (hf : RequestFrame s d f) (hp : s.params.Wf) (hfit : f.length ≤ s.params.bufMax)
    (hfree : s.envState ≠ .pending) :
    buildRequest (.ok f) n s = .ok (s.openEnvelope f (BitVec.ofNat 16 n)) :=
  (envBuild_eq_ok _ _ _ _ _).mpr ⟨hf.minpkt_le hp, hfit, hfree, rfl⟩

end

/-- The envelope of a request that fits the buffer, with a response size that fits its register. -/
theorem built_request {s : State} {f : List Byte} {n : Nat} (hp : s.params.Wf) (hfit : f.length ≤ s.params.bufMax)
    (hn : n < 65536) : Built s (replied (s.openEnvelope f (BitVec.ofNat 16 n)) [0x00]) f n := by
  have hbuilt := built_of_openEnvelope s f (BitVec.ofNat 16 n) (hfit.trans hp.bufMax_le)
  rwa [BitVec.toNat_ofNat, Nat.mod_eq_of_lt hn] at hbuilt

/-! ### The response sizes (R171, R176) -/

theorem respSize_v1 (p : Params) (n : Nat) : respSize p .v1 n = 6 + n := by
  simp only [respSize, v1OffParam, v1CsumLen]
  omega

theorem respSize_v2 (p : Params) (n : Nat) : respSize p .v2 n = p.v2DataOffset + n + 2 := rfl

theorem ackRespSize_v1 (p : Params) (ack : Byte) : ackRespSize p .v1 ack = if ack = 1 then 6 else 0 := rfl

theorem ackRespSize_v2 (p : Params) (ack : Byte) :
    ackRespSize p .v2 ack = if ack = 1 then p.v2DataOffset + 2 else 0 := rfl

/-- The response sizes of requests: none expected, or a status frame with a byte's worth of data. -/
def ExpectedSize (p : Params) (v : Version) (n : Nat) : Prop := n = 0 ∨ ∃ b : Byte, n = respSize p v b.toNat

theorem ackRespSize_expected (p : Params) (v : Version) (ack : Byte) : ExpectedSize p v (ackRespSize p v ack) := by
  unfold ackRespSize
  split
  · exact .inr ⟨0, rfl⟩
  · exact .inl rfl

theorem ExpectedSize.lt {p : Params} {v : Version} {n : Nat} (h : ExpectedSize p v n) (hp : p.Wf) : n < 65536 := by
  rcases h with rfl | ⟨b, rfl⟩
  · decide
  · exact respSize_lt p hp v b

theorem ExpectedSize.bounds {p : Params} {v : Version} {n : Nat} (h : ExpectedSize p v n) (hp : p.Wf) :
    n = 0 ∨ (v = .v2 ∧ 11 ≤ n) ∨ (v = .v1 ∧ 6 ≤ n) := by
  rcases h with rfl | ⟨b, rfl⟩
  · exact .inl rfl
  · cases v with
    | v1 => exact .inr (.inr ⟨rfl, by rw [respSize_v1]; omega⟩)
    | v2 =>
      obtain ⟨herr, hdata⟩ := hp.errOffset
      exact .inr (.inl ⟨rfl, by rw [respSize_v2]; omega⟩)

/-! ### `REG.RD` (R172) -/

/-- A read request fits every buffer: it has 14 bytes or 8. -/
theorem readFrame_cases (s : State) (d : Descriptor) :
    (∃ f, readFrame s d = .ok f ∧ RequestFrame s d f ∧ f.length ≤ 14) ∨ readFrame s d = .error .badOperand := by
  cases hv : s.pver with
  | v2 =>
    have hreq : RequestFrame s d (frame2 s.params s.motorId 0x04 [d.addressLow, d.addressHigh, d.length, 0x00]) :=
      .v2 0x04 [d.length, 0x00] hv (.inl rfl) (by simp) (by simp)
    exact .inl ⟨_, readFrame_v2 s d hv, hreq, by simp⟩
  | v1 =>
    by_cases haddr : d.addressHigh = 0
    · exact .inl ⟨_, readFrame_v1 s d hv haddr, .v1 0x04 _ [d.length] hv (by simp) rfl, by simp⟩
    · exact .inr (readFrame_v1_bad s d hv haddr)

theorem readFrame_request {s : State} {d : Descriptor} {f : List Byte} (h : readFrame s d = .ok f) :
    RequestFrame s d f ∧ f.length ≤ 14 := by
  rcases readFrame_cases s d with ⟨g, hg, hspec⟩ | hbad
  · cases h.symm.trans hg
    exact hspec
  · cases h.symm.trans hbad

theorem readFrame_of_address {s : State} {d : Descriptor} (h : s.pver = .v2 ∨ d.addressHigh = 0) :
    ∃ f, readFrame s d = .ok f := by
  rcases readFrame_cases s d with ⟨f, hf, -⟩ | hbad
  · exact ⟨f, hf⟩
  · cases hv : s.pver with
    | v2 => exact ⟨_, readFrame_v2 s d hv⟩
    | v1 => exact ⟨_, readFrame_v1 s d hv (h.resolve_left (by simp [hv]))⟩

section
variable {s : State} {d : Descriptor}

theorem exec_regRd_of_length_zero (s : State) (h : d.length = 0) :
    exec (.regRd d) s = .next (replied s [0x05]) :=
  (if_neg fun hvalid => (validDesc_eq_true d).mp hvalid h).trans (raise_eq .badOperand s)

theorem exec_regRd_of_length (s : State) (h : d.length ≠ 0) :
    exec (.regRd d) s =
      finishOr (buildRequest (readFrame s d) (respSize s.params s.pver d.length.toNat) s) s :=
  if_pos ((validDesc_eq_true d).mpr h)

theorem exec_regRd_of_address_high (hv : s.pver = .v1) (haddr : d.addressHigh ≠ 0) :
    exec (.regRd d) s = .next (replied s [0x05]) := by
  by_cases hd : d.length = 0
  · exact exec_regRd_of_length_zero s hd
  · rw [exec_regRd_of_length s hd, readFrame_v1_bad s d hv haddr]
    exact finishOr_error .badOperand s

theorem exec_regRd_busy (hp : s.params.Wf) (hd : d.length ≠ 0) (haddr : s.pver = .v2 ∨ d.addressHigh = 0)
    (hbusy : s.envState = .pending) : exec (.regRd d) s = .next (replied s [0x02]) := by
  obtain ⟨f, hf⟩ := readFrame_of_address haddr
  obtain ⟨hreq, hlen⟩ := readFrame_request hf
  rw [exec_regRd_of_length s hd, hf, hreq.build_busy _ hp (hlen.trans hp.bufMax_ge) hbusy]
  exact finishOr_error .envelopeBusy s

theorem exec_regRd_built {f : List Byte} (hp : s.params.Wf) (hd : d.length ≠ 0) (hf : readFrame s d = .ok f)
    (hfree : s.envState ≠ .pending) :
    ∃ t, exec (.regRd d) s = .next t ∧ Built s t f (respSize s.params s.pver d.length.toNat) := by
  obtain ⟨hreq, hlen⟩ := readFrame_request hf
  have hfit := hlen.trans hp.bufMax_ge
  rw [exec_regRd_of_length s hd, hf, hreq.build_free _ hp hfit hfree]
  exact ⟨_, finishOr_ok s _, built_request hp hfit (respSize_lt _ hp _ _)⟩

end

/-- Settles O46: past the operand tests only a busy slot stops a read request, which fits every buffer. -/
theorem regRdBuildsTheReadRequest : Obligations.RegRdBuildsTheReadRequest := by
  refine fun s d hp => ⟨exec_regRd_of_length_zero s, exec_regRd_of_address_high, exec_regRd_busy hp,
    fun hd hv hfree => ?v2, fun hd hv haddr hfree => ?v1, answer_ok rfl s,
    fun rest h => answer_error ((decode_regRd rest).trans (decodeD_malformed _ h)) s⟩
  case v2 =>
    obtain ⟨t, ht, hbuilt⟩ := exec_regRd_built hp hd (readFrame_v2 s d hv) hfree
    rw [hv, respSize_v2] at hbuilt
    exact ⟨t, ht, hbuilt⟩
  case v1 =>
    obtain ⟨t, ht, hbuilt⟩ := exec_regRd_built hp hd (readFrame_v1 s d hv haddr) hfree
    rw [hv, respSize_v1] at hbuilt
    exact ⟨t, ht, hbuilt⟩

end Sys2Proof.Machine
end

section
/-! The write requests of the register framer (45_framer_register.md R173, R174): `REG.WR`, and `REG.SETID`, which
writes `MOTOR_ID` once its request was built. -/
namespace Sys2Proof.Machine

/-! ### Write requests, the part `REG.WR` and `REG.SETID` share (R173, R174) -/

/-- The request of `REG.WR` and `REG.SETID` once their operands are judged. -/
def writeRequest (s : State) (d : Descriptor) (ack : Byte) (data : List Byte) : Except Err State :=
  buildRequest (writeFrame s d data) (ackRespSize s.params s.pver ack) s

/-- The operands v1 cannot carry in a write (R173). -/
def UnwritableV1 (s : State) (d : Descriptor) : Prop :=
  s.pver = .v1 ∧ (d.addressHigh ≠ 0 ∨ 252 < d.length.toNat)

/-- The write frame of the active version, as R173 writes it out. -/
def writtenFrame (s : State) (d : Descriptor) (data : List Byte) : List Byte :=
  match s.pver with
  | .v2 => frame2 s.params s.motorId 0x03 ([d.addressLow, d.addressHigh] ++ data)
  | .v1 => frame1 s.params
      ([s.motorId, BitVec.ofNat 8 (d.length.toNat + 3), s.params.v1InstrWrite, d.addressLow] ++ data)

/-- The size of that frame. -/
def writtenSize (v : Version) (d : Descriptor) : Nat :=
  match v with
  | .v1 => 7 + d.length.toNat
  | .v2 => 12 + d.length.toNat

/-- A write with as many data bytes as its descriptor says, at least one, that the active version can carry. -/
structure Writable (s : State) (d : Descriptor) (data : List Byte) : Prop where
  length_ne_zero : d.length ≠ 0
  data_length : data.length = d.length.toNat
  carried : ¬ UnwritableV1 s d

theorem add_three_eq_ofNat (b : Byte) : b + 3 = BitVec.ofNat 8 (b.toNat + 3) := by bv_omega

section
variable {s : State} {d : Descriptor} {data : List Byte}

theorem writtenFrame_v2 (data : List Byte) (hv : s.pver = .v2) :
    writtenFrame s d data = frame2 s.params s.motorId 0x03 ([d.addressLow, d.addressHigh] ++ data) := by
  simp only [writtenFrame, hv]

theorem writtenFrame_v1 (data : List Byte) (hv : s.pver = .v1) :
    writtenFrame s d data = frame1 s.params
      ([s.motorId, BitVec.ofNat 8 (d.length.toNat + 3), s.params.v1InstrWrite, d.addressLow] ++ data) := by
  simp only [writtenFrame, hv]

theorem writtenFrame_length (h : data.length = d.length.toNat) :
    (writtenFrame s d data).length = writtenSize s.pver d := by
  cases hv : s.pver with
  | v2 =>
    rw [writtenFrame_v2 data hv, frame2_length, List.length_append, h]
    exact Nat.add_right_comm 2 _ 10
  | v1 =>
    rw [writtenFrame_v1 data hv, frame1_length, List.length_append, h]
    exact Nat.add_right_comm 4 _ 3

/-- Within v1's limits the address is the low byte alone and the length byte does not wrap. -/
theorem Writable.limits_v1 (hw : Writable s d data) (hv : s.pver = .v1) :
    d.addressHigh = 0 ∧ d.length.toNat ≤ 252 := by
  by_contra hlimits
  refine hw.carried ⟨hv, ?_⟩
  rwa [not_and_or, Nat.not_le] at hlimits

theorem Writable.writeFrame_eq (hw : Writable s d data) : writeFrame s d data = .ok (writtenFrame s d data) := by
  cases hv : s.pver with
  | v2 => rw [writeFrame_v2 s d data hv, writtenFrame_v2 data hv]
  | v1 =>
    obtain ⟨haddr, hmax⟩ := hw.limits_v1 hv
    rw [writeFrame_v1 s d data hv haddr hmax, writtenFrame_v1 data hv, add_three_eq_ofNat]

theorem Writable.requestFrame (hw : Writable s d data) : RequestFrame s d (writtenFrame s d data) := by
  have hlen := hw.data_length
  have hpos : 1 ≤ data.length := by
    have := of_decide_eq_true ((validDesc_eq_true d).mpr hw.length_ne_zero)
    omega
  cases hv : s.pver with
  | v2 =>
    rw [writtenFrame_v2 data hv]
    exact .v2 0x03 data hv (.inr rfl) hpos (by omega)
  | v1 =>
    obtain ⟨-, hmax⟩ := hw.limits_v1 hv
    rw [writtenFrame_v1 data hv]
    exact .v1 _ _ data hv hpos (by rw [BitVec.toNat_ofNat]; omega)

theorem writeRequest_unwritable (h : UnwritableV1 s d) (ack : Byte) :
    writeRequest s d ack data = .error .badOperand := by
  rw [writeRequest, writeFrame_v1_bad s d data h.1 h.2]
  rfl

variable (hw : Writable s d data) (hp : s.params.Wf) (ack : Byte)
include hw hp

theorem Writable.request_tooLong (hcap : s.params.bufMax < writtenSize s.pver d) :
    writeRequest s d ack data = .error .bufferCapacity := by
  rw [writeRequest, hw.writeFrame_eq]
  exact hw.requestFrame.build_tooLong _ hp (by rwa [writtenFrame_length hw.data_length])

theorem Writable.request_busy (hfit : writtenSize s.pver d ≤ s.params.bufMax) (hbusy : s.envState = .pending) :
    writeRequest s d ack data = .error .envelopeBusy := by
  rw [writeRequest, hw.writeFrame_eq]
  exact hw.requestFrame.build_busy _ hp (by rwa [writtenFrame_length hw.data_length]) hbusy

theorem Writable.request_free (hfit : writtenSize s.pver d ≤ s.params.bufMax) (hfree : s.envState ≠ .pending) :
    ∃ u, writeRequest s d ack data = .ok u ∧
      Built s (replied u [0x00]) (writtenFrame s d data) (ackRespSize s.params s.pver ack) := by
  rw [← writtenFrame_length hw.data_length] at hfit
  rw [writeRequest, hw.writeFrame_eq, hw.requestFrame.build_free _ hp hfit hfree]
  exact ⟨_, rfl, built_request hp hfit ((ackRespSize_expected _ _ ack).lt hp)⟩

end

section
variable {s t : State} {d : Descriptor} {data : List Byte} {ack : Byte}

theorem Built.written_v2 (h : Built s t (writtenFrame s d data) (ackRespSize s.params s.pver ack))
    (hv : s.pver = .v2) :
    Built s t (frame2 s.params s.motorId 0x03 ([d.addressLow, d.addressHigh] ++ data))
      (if ack = 1 then s.params.v2DataOffset + 2 else 0) := by
  rwa [writtenFrame_v2 data hv, hv, ackRespSize_v2] at h

theorem Built.written_v1 (h : Built s t (writtenFrame s d data) (ackRespSize s.params s.pver ack))
    (hv : s.pver = .v1) :
    Built s t (frame1 s.params
        ([s.motorId, BitVec.ofNat 8 (d.length.toNat + 3), s.params.v1InstrWrite, d.addressLow] ++ data))
      (if ack = 1 then 6 else 0) := by
  rwa [writtenFrame_v1 data hv, hv, ackRespSize_v1] at h

end

/-! ### `REG.WR` (R173) -/

section
variable {s : State} {d : Descriptor} {ack : Byte} {data : List Byte}

theorem exec_regWr_of_valid (hlen : data.length = d.length.toNat) (hd : d.length ≠ 0) (hack : ack.toNat ≤ 1) :
    exec (.regWr d ack data) s = finishOr (writeRequest s d ack data) s :=
  (if_neg (not_not_intro hlen)).trans
    (if_pos (Bool.and_eq_true_iff.mpr ⟨(validDesc_eq_true d).mpr hd, (validAck_eq_true ack).mpr hack⟩))

theorem exec_regWr_badOperand (hlen : data.length = d.length.toNat)
    (hbad : d.length = 0 ∨ 1 < ack.toNat ∨ UnwritableV1 s d) :
    exec (.regWr d ack data) s = .next (replied s [0x05]) := by
  by_cases hvalid : validDesc d && validAck ack
  · obtain ⟨hd, hack⟩ := Bool.and_eq_true_iff.mp hvalid
    rw [validDesc_eq_true] at hd
    rw [validAck_eq_true] at hack
    have hv1 : UnwritableV1 s d := (hbad.resolve_left hd).resolve_left (Nat.not_lt.mpr hack)
    rw [exec_regWr_of_valid hlen hd hack, writeRequest_unwritable hv1]
    exact finishOr_error .badOperand s
  · exact (if_neg (not_not_intro hlen)).trans ((if_neg hvalid).trans (raise_eq .badOperand s))

end

/-- Settles O47: with good operands `REG.WR` is its write request. -/
theorem regWrBuildsTheWriteRequest : Obligations.RegWrBuildsTheWriteRequest := by
  intro s d ack data hp hlen i bad size
  have hgood (h : ¬ bad) : Writable s d data ∧ exec i s = finishOr (writeRequest s d ack data) s := by
    obtain ⟨hd, hack, hv1⟩ : d.length ≠ 0 ∧ ¬ 1 < ack.toNat ∧ ¬ UnwritableV1 s d := by
      rwa [← not_or, ← not_or]
    exact ⟨⟨hd, hlen, hv1⟩, exec_regWr_of_valid hlen hd (Nat.not_lt.mp hack)⟩
  have hbuilt (h : ¬ bad) (hfit : size ≤ s.params.bufMax) (hfree : s.envState ≠ .pending) :
      ∃ t, exec i s = .next t ∧ Built s t (writtenFrame s d data) (ackRespSize s.params s.pver ack) := by
    obtain ⟨hw, hexec⟩ := hgood h
    obtain ⟨u, hu, hbuilt⟩ := hw.request_free hp ack hfit hfree
    exact ⟨_, by rw [hexec, hu, finishOr_ok], hbuilt⟩
  refine ⟨exec_regWr_badOperand hlen, fun h hcap => ?tooLong, fun h hfit hbusy => ?busy,
    fun h hfit hfree hv => ?v2, fun h hfit hfree hv => ?v1, ?message, fun rest h => ?short, fun other h => ?misfit⟩
  case tooLong =>
    obtain ⟨hw, hexec⟩ := hgood h
    rw [hexec, hw.request_tooLong hp ack hcap]
    exact finishOr_error .bufferCapacity s
  case busy =>
    obtain ⟨hw, hexec⟩ := hgood h
    rw [hexec, hw.request_busy hp ack hfit hbusy]
    exact finishOr_error .envelopeBusy s
  case v2 =>
    obtain ⟨t, ht, hb⟩ := hbuilt h hfit hfree
    exact ⟨t, ht, hb.written_v2 hv⟩
  case v1 =>
    obtain ⟨t, ht, hb⟩ := hbuilt h hfit hfree
    exact ⟨t, ht, hb.written_v1 hv⟩
  case message =>
    exact answer_ok ((decode_regWr _).trans ((decodeDW_eq_ok 0x61).mpr ⟨d, ack, data, rfl, hlen, rfl⟩)) s
  case short => exact answer_error ((decode_regWr rest).trans (decodeDW_malformed _ (.inl h))) s
  case misfit =>
    refine answer_error ((decode_regWr _).trans (decodeDW_malformed _ (.inr fun hfits => h ?_))) s
    have hcount : other.length + 4 = 4 + d.length.toNat := hfits
    omega

/-! ### `REG.SETID` (R174) -/

theorem setidData_length {p : Params} (hp : p.Wf) (newid : Byte) :
    (setidData (idDescriptor p) newid).length = (idDescriptor p).length.toNat := by
  have hpos : 1 ≤ (idDescriptor p).length.toNat := hp.regmap_length 0
  rw [setidData, List.length_cons, List.length_replicate]
  omega

theorem idDescriptor_length_ne_zero {p : Params} (hp : p.Wf) : (idDescriptor p).length ≠ 0 :=
  regmap_length_ne_zero hp (k := 0) (by decide)

/-- The write request of `REG.SETID`. -/
abbrev setidRequest (s : State) (newid ack : Byte) : Except Err State :=
  writeRequest s (idDescriptor s.params) ack (setidData (idDescriptor s.params) newid)

section
variable {s : State} {newid ack : Byte}

/-- `MOTOR_ID` is written after the request was built, and only then. -/
theorem exec_regSetid_of_valid (hid : newid.toNat ≤ 252) (hack : ack.toNat ≤ 1) :
    exec (.regSetid newid ack) s = finishOr ((setidRequest s newid ack).map (·.setMotorId newid)) s := by
  have hvalid : (decide (newid.toNat ≤ idMax) && validAck ack) = true :=
    Bool.and_eq_true_iff.mpr ⟨decide_eq_true hid, (validAck_eq_true ack).mpr hack⟩
  simp only [exec, execRegSetid, hvalid, if_true, setidRequest, writeRequest]
  split
  next u hu => rw [hu]; rfl
  next e he => rw [he]; rfl

theorem exec_regSetid_badOperand
    (hbad : 252 < newid.toNat ∨ 1 < ack.toNat ∨ UnwritableV1 s (idDescriptor s.params)) :
    exec (.regSetid newid ack) s = .next (replied s [0x05]) := by
  by_cases hvalid : decide (newid.toNat ≤ idMax) && validAck ack
  · obtain ⟨hid, hack⟩ := Bool.and_eq_true_iff.mp hvalid
    rw [decide_eq_true_eq] at hid
    rw [validAck_eq_true] at hack
    have hv1 := (hbad.resolve_left (Nat.not_lt.mpr hid)).resolve_left (Nat.not_lt.mpr hack)
    rw [exec_regSetid_of_valid hid hack, setidRequest, writeRequest_unwritable hv1]
    exact finishOr_error .badOperand s
  · exact (if_neg hvalid).trans (raise_eq .badOperand s)

end

/-- Settles O49: with good operands `REG.SETID` is the write request to `REGMAP[0]`, followed by the renaming. -/
theorem regSetidRenamesWhenTheFrameIsBuilt : Obligations.RegSetidRenamesWhenTheFrameIsBuilt := by
  intro s newid ack hp i d data bad size
  have hgood (h : ¬ bad) :
      Writable s d data ∧ exec i s = finishOr ((writeRequest s d ack data).map (·.setMotorId newid)) s := by
    obtain ⟨hid, hack, hv1⟩ : ¬ 252 < newid.toNat ∧ ¬ 1 < ack.toNat ∧ ¬ UnwritableV1 s d := by
      rwa [← not_or, ← not_or]
    exact ⟨⟨idDescriptor_length_ne_zero hp, setidData_length hp newid, hv1⟩,
      exec_regSetid_of_valid (Nat.not_lt.mp hid) (Nat.not_lt.mp hack)⟩
  refine ⟨exec_regSetid_badOperand, fun h hcap => ?tooLong, fun h hfit hbusy => ?busy, fun h hfit hfree => ?built,
    answer_ok rfl s, fun rest h => answer_error ((decode_regSetid rest).trans (decodeI_malformed _ h)) s⟩
  case tooLong =>
    obtain ⟨hw, hexec⟩ := hgood h
    rw [hexec, hw.request_tooLong hp ack hcap]
    exact finishOr_error .bufferCapacity s
  case busy =>
    obtain ⟨hw, hexec⟩ := hgood h
    rw [hexec, hw.request_busy hp ack hfit hbusy]
    exact finishOr_error .envelopeBusy s
  case built =>
    obtain ⟨hw, hexec⟩ := hgood h
    obtain ⟨u, hu, hbuilt⟩ := hw.request_free hp ack hfit hfree
    exact ⟨replied (u.setMotorId newid) [0x00], replied u [0x00], by rw [hexec, hu]; rfl, rfl,
      hbuilt.written_v2, hbuilt.written_v1⟩

end Sys2Proof.Machine
end

section
/-! Everything the three request operations can answer (45_framer_register.md R176, R177). -/
namespace Sys2Proof.Machine

/-- `t` is what a request for `d` leaves of `s`: an error that is not `InvalidFrameSize`, or an envelope with a request
frame and an expected response size; `REG.SETID` has then written `MOTOR_ID` as well. -/
inductive RequestOutcome (s : State) (d : Descriptor) : State → Prop where
  | raised (e : Err) (he : e ≠ .invalidFrameSize) : RequestOutcome s d (replied s (errMessage e))
  | built (t u : State) (f : List Byte) (n : Nat) (hf : RequestFrame s d f) (hn : ExpectedSize s.params s.pver n)
      (hbuilt : Built s u f n) (henv : SameEnvelope u t) (hout : t.outbox = u.outbox) : RequestOutcome s d t

/-- A request ends in one of two ways, whatever its frame is. -/
theorem buildRequest_cases {s : State} {d : Descriptor} {g : Except Err (List Byte)} {n : Nat} (hp : s.params.Wf)
    (hg : (∃ f, g = .ok f ∧ RequestFrame s d f) ∨ g = .error .badOperand) (hn : ExpectedSize s.params s.pver n) :
    (∃ e, e ≠ .invalidFrameSize ∧ buildRequest g n s = .error e) ∨
    ∃ u f, RequestFrame s d f ∧ buildRequest g n s = .ok u ∧ Built s (replied u [0x00]) f n := by
  rcases hg with ⟨f, rfl, hf⟩ | rfl
  · by_cases hcap : s.params.bufMax < f.length
    · exact .inl ⟨.bufferCapacity, by decide, hf.build_tooLong n hp hcap⟩
    · have hfit := Nat.not_lt.mp hcap
      by_cases hbusy : s.envState = .pending
      · exact .inl ⟨.envelopeBusy, by decide, hf.build_busy n hp hfit hbusy⟩
      · exact .inr ⟨_, f, hf, hf.build_free n hp hfit hbusy, built_request hp hfit (hn.lt hp)⟩
  · exact .inl ⟨.badOperand, by decide, rfl⟩

/-- The outcome of a request, with what is written after it (`k`: nothing, or `MOTOR_ID`). -/
theorem outcome_of_request {s t : State} {d : Descriptor} {g : Except Err (List Byte)} {n : Nat} (k : State → State)
    (hk : ∀ u, SameEnvelope u (k u) ∧ (k u).outbox = u.outbox) (hp : s.params.Wf)
    (hg : (∃ f, g = .ok f ∧ RequestFrame s d f) ∨ g = .error .badOperand) (hn : ExpectedSize s.params s.pver n)
    (h : finishOr ((buildRequest g n s).map k) s = .next t) : RequestOutcome s d t := by
  rcases buildRequest_cases hp hg hn with ⟨e, he, hr⟩ | ⟨u, f, hf, hr, hbuilt⟩
  · rw [hr] at h
    cases h
    exact .raised e he
  · rw [hr] at h
    cases h
    obtain ⟨⟨hstate, hpkt, hresp, hbuf⟩, hout⟩ := hk u
    exact .built _ _ f n hf hn hbuilt ⟨hstate, hpkt, hresp, hbuf⟩ (congrArg (· ++ [[0x00]]) hout)

theorem writeFrame_cases {s : State} {d : Descriptor} {data : List Byte} (hd : d.length ≠ 0)
    (hlen : data.length = d.length.toNat) :
    (∃ f, writeFrame s d data = .ok f ∧ RequestFrame s d f) ∨ writeFrame s d data = .error .badOperand := by
  by_cases hv1 : UnwritableV1 s d
  · exact .inr (writeFrame_v1_bad s d data hv1.1 hv1.2)
  · have hw : Writable s d data := ⟨hd, hlen, hv1⟩
    exact .inl ⟨_, hw.writeFrame_eq, hw.requestFrame⟩

/-- The three requests and the descriptors they address. -/
theorem requestDescriptor_eq_some {p : Params} {i : Instr} {d : Descriptor} (h : requestDescriptor p i = some d) :
    i = .regRd d ∨ (∃ ack data, i = .regWr d ack data) ∨ ∃ newid ack, i = .regSetid newid ack ∧ d = idDescriptor p := by
  cases i with
  | regRd d' => cases h; exact .inl rfl
  | regWr d' ack data => cases h; exact .inr (.inl ⟨ack, data, rfl⟩)
  | regSetid newid ack => cases h; exact .inr (.inr ⟨newid, ack, rfl, rfl⟩)
  | _ => cases h

/-- Everything `REG.RD`, `REG.WR` and `REG.SETID` can do. -/
theorem exec_request_outcome {i : Instr} {s t : State} {d : Descriptor} (hp : s.params.Wf)
    (hi : requestDescriptor s.params i = some d) (h : exec i s = .next t) : RequestOutcome s d t := by
  rcases requestDescriptor_eq_some hi with rfl | ⟨ack, data, rfl⟩ | ⟨newid, ack, rfl, rfl⟩
  · by_cases hd : d.length = 0
    · rw [exec_regRd_of_length_zero s hd] at h
      cases h
      exact .raised .badOperand (by decide)
    · rw [exec_regRd_of_length s hd] at h
      refine outcome_of_request id (fun _ => ⟨⟨rfl, rfl, rfl, rfl⟩, rfl⟩) hp ?_ (.inr ⟨d.length, rfl⟩)
        (by rwa [Except.map_id])
      exact (readFrame_cases s d).imp_left fun ⟨f, hf, hreq, _⟩ => ⟨f, hf, hreq⟩
  · by_cases hlen : data.length = d.length.toNat
    · by_cases hbad : d.length = 0 ∨ 1 < ack.toNat
      · rw [exec_regWr_badOperand hlen (or_assoc.mp (.inl hbad))] at h
        cases h
        exact .raised .badOperand (by decide)
      · obtain ⟨hd, hack⟩ := not_or.mp hbad
        rw [exec_regWr_of_valid hlen hd (Nat.not_lt.mp hack)] at h
        exact outcome_of_request id (fun _ => ⟨⟨rfl, rfl, rfl, rfl⟩, rfl⟩) hp (writeFrame_cases hd hlen)
          (ackRespSize_expected _ _ ack) (by rwa [Except.map_id])
    · rw [regWrOfWrongLengthIsIllegal s d ack data hlen] at h
      cases h
      exact .raised .illegalCommand (by decide)
  · by_cases hbad : 252 < newid.toNat ∨ 1 < ack.toNat
    · rw [exec_regSetid_badOperand (or_assoc.mp (.inl hbad))] at h
      cases h
      exact .raised .badOperand (by decide)
    · obtain ⟨hid, hack⟩ := not_or.mp hbad
      rw [exec_regSetid_of_valid (Nat.not_lt.mp hid) (Nat.not_lt.mp hack)] at h
      exact outcome_of_request (·.setMotorId newid) (fun _ => ⟨⟨rfl, rfl, rfl, rfl⟩, rfl⟩) hp
        (writeFrame_cases (idDescriptor_length_ne_zero hp) (setidData_length hp newid))
        (ackRespSize_expected _ _ ack) h

/-- Only `InvalidFrameSize` has the code 01 (60_exceptions.md R191). -/
theorem errMessage_eq_one {e : Err} (h : errMessage e = [0x01]) : e = .invalidFrameSize := by
  cases e with
  | invalidFrameSize => rfl
  | _ => simp [errMessage, errCode] at h

/-- Settles O52: both clauses are read off the outcome; a slot that was free is not Pending after an error. -/
theorem requestsAreNeverTooShort : Obligations.RequestsAreNeverTooShort := by
  intro i s t hp hi h
  obtain ⟨d, hd⟩ := Option.isSome_iff_exists.mp hi
  cases exec_request_outcome hp hd h with
  | raised e he =>
    exact ⟨by simpa using mt errMessage_eq_one he, fun hfree hpending => absurd hpending hfree⟩
  | built _ u f n hf hn hbuilt henv hout =>
    refine ⟨?_, fun _ _ => ?_⟩
    · rw [hout, congrArg State.outbox hbuilt.others]
      simp
    · rw [henv.respSize, ← BitVec.toNat_inj, hbuilt.response]
      exact hn.bounds hp

/-- Settles O53: the frame of a request that was built, byte by byte. -/
theorem requestFramesRoundTrip : Obligations.RequestFramesRoundTrip := by
  intro i s t d hp hd hfree h hpending
  cases exec_request_outcome hp hd h with
  | raised e he => exact absurd hpending hfree
  | built _ u f n hf hn hbuilt henv hout =>
    exact ⟨f, by rw [henv.pktSize, hbuilt.size], fun a ha => by rw [henv.buf, hbuilt.stored a ha],
      hf.bytes_v2, hf.bytes_v1⟩

end Sys2Proof.Machine
end

section
/-! Reading a status frame (45_framer_register.md R175): the status byte `REG.XTR` judges, its answers, and the status
frames it accepts. -/
namespace Sys2Proof.Machine

/-! ### The status byte -/

/-- `xtrStatus` adds bit 4 for a frame of an unexpected size that is not too short (R175). -/
theorem xtrStatus_eq (p : Params) (v : Version) (d : Descriptor) (bytes : List Byte) :
    xtrStatus p v d bytes =
      if checkFor p v bytes &&& 0x01 = 0 ∧ bytes.length ≠ respSize p v d.length.toNat
      then checkFor p v bytes ||| 0x10 else checkFor p v bytes := by
  simp only [xtrStatus, flagIf, stTooShort, stBadLength, Bool.and_eq_true, beq_iff_eq, bne_iff_ne]
  split
  · rfl
  · exact BitVec.or_zero

/-- No defect: the check finds none and the frame has the size the read expects. -/
theorem xtrStatus_eq_zero (p : Params) (v : Version) (d : Descriptor) (bytes : List Byte) :
    xtrStatus p v d bytes = 0 ↔ checkFor p v bytes = 0 ∧ bytes.length = respSize p v d.length.toNat := by
  rw [xtrStatus_eq]
  split
  next h =>
    have hbit : checkFor p v bytes ||| 0x10 ≠ 0 := by simp [BitVec.or_eq_zero_iff]
    exact iff_of_false hbit fun hgood => h.2 hgood.2
  next h =>
    refine ⟨fun hzero => ⟨hzero, ?_⟩, And.left⟩
    by_contra hsize
    exact h ⟨by rw [hzero]; rfl, hsize⟩

/-! ### The answers of `REG.XTR` -/

theorem slice_add (s : List Byte) (a n : Nat) : slice s a (a + n) = (s.drop a).take n := by
  rw [slice, List.drop_take, Nat.add_sub_cancel_left]

/-- Behind the data there is at least the footer's byte. -/
theorem dataOffset_add_le_respSize (p : Params) (v : Version) (n : Nat) : dataOffset p v + n ≤ respSize p v n := by
  cases v with
  | v1 => exact Nat.le_add_right (5 + n) 1
  | v2 => exact Nat.le_add_right (p.v2DataOffset + n) 2

/-- The descriptors `REG.XTR` refuses (R175). -/
def UnreadableDescriptor (s : State) (d : Descriptor) : Prop :=
  d.length = 0 ∨ (s.pver = .v1 ∧ d.addressHigh ≠ 0)

section
variable {s : State} {d : Descriptor} (bytes : List Byte)

theorem xtr_guard_eq_true (s : State) (d : Descriptor) :
    (validDesc d && (s.pver == .v2 || d.addressHigh == 0)) = true ↔ ¬ UnreadableDescriptor s d := by
  rw [Bool.and_eq_true, validDesc_eq_true, Bool.or_eq_true, beq_iff_eq, beq_iff_eq, UnreadableDescriptor, not_or]
  cases s.pver <;> simp

theorem not_unreadable (hd : d.length ≠ 0) (haddr : s.pver = .v2 ∨ d.addressHigh = 0) :
    ¬ UnreadableDescriptor s d := by
  rintro (hzero | ⟨hv, hhigh⟩)
  · exact hd hzero
  · exact hhigh (haddr.resolve_left (by simp [hv]))

theorem exec_regXtr_badOperand (h : UnreadableDescriptor s d) :
    exec (.regXtr d bytes) s = .next (replied s [0x05]) :=
  (if_neg fun hguard => (xtr_guard_eq_true s d).mp hguard h).trans (raise_eq .badOperand s)

theorem exec_regXtr_badResponse (hd : ¬ UnreadableDescriptor s d) (hst : xtrStatus s.params s.pver d bytes ≠ 0) :
    exec (.regXtr d bytes) s = .next (replied s [0x07, xtrStatus s.params s.pver d bytes]) :=
  (if_pos ((xtr_guard_eq_true s d).mpr hd)).trans ((if_neg hst).trans (raise_eq (.badResponse _) s))

theorem exec_regXtr_data (hd : ¬ UnreadableDescriptor s d) (hst : xtrStatus s.params s.pver d bytes = 0) :
    exec (.regXtr d bytes) s =
      .next (replied s (0x00 :: (bytes.drop (dataOffset s.params s.pver)).take d.length.toNat)) := by
  rw [← slice_add, ← finish_eq]
  exact (if_pos ((xtr_guard_eq_true s d).mpr hd)).trans (if_pos hst)

/-- A frame without defect holds all the data the descriptor asks for. -/
theorem xtr_data_length (hst : xtrStatus s.params s.pver d bytes = 0) :
    ((bytes.drop (dataOffset s.params s.pver)).take d.length.toNat).length = d.length.toNat := by
  obtain ⟨-, hsize⟩ := (xtrStatus_eq_zero _ _ _ _).mp hst
  have := dataOffset_add_le_respSize s.params s.pver d.length.toNat
  rw [List.length_take, List.length_drop]
  omega

end

/-- Settles O50: the statement's check, expected size and data offset are those of the active version. -/
theorem regXtrExtractsOrReports : Obligations.RegXtrExtractsOrReports := by
  intro s d bytes i bad found expected off st
  have hexpected : expected = respSize s.params s.pver d.length.toNat := by
    simp only [expected]
    cases s.pver with
    | v1 => exact (respSize_v1 s.params _).symm
    | v2 => rfl
  have hfound : found = checkFor s.params s.pver bytes := by
    simp only [found]
    cases s.pver <;> rfl
  have hoff : off = dataOffset s.params s.pver := by
    simp only [off]
    cases s.pver <;> rfl
  have hst : st = xtrStatus s.params s.pver d bytes := by
    rw [xtrStatus_eq, ← hfound, ← hexpected]
  rw [hst, hoff]
  exact ⟨exec_regXtr_badOperand bytes, exec_regXtr_badResponse bytes,
    fun hd hgood => ⟨exec_regXtr_data bytes hd hgood, xtr_data_length bytes hgood⟩, answer_ok rfl s,
    fun rest h => answer_error ((decode_regXtr rest).trans (decodeDX_malformed _ h)) s⟩

/-! ### Good status frames -/

/-- A status byte whose bits report the defects `P` is 0 when there is none. -/
theorem status_eq_zero {st : Byte} {P : Nat → Prop} (hbit : ∀ i, st.getLsbD i = true ↔ P i) (h : ∀ i, ¬ P i) :
    st = 0 :=
  BitVec.eq_of_getLsbD_eq fun i _ => (Bool.eq_false_iff.mpr (mt (hbit i).mp (h i))).trans BitVec.getLsbD_zero.symm

/-- A v1 frame has no defect when its length byte counts its body from that byte on (R156). -/
theorem check1_frame1_eq_zero (p : Params) (id len : Byte) {rest : List Byte} (hpos : 1 ≤ rest.length)
    (hlen : len.toNat = rest.length + 1) : check1 p (frame1 p (id :: len :: rest)) = 0 := by
  have hsize : 6 ≤ (frame1 p (id :: len :: rest)).length := by
    simp only [frame1_length, List.length_cons]
    omega
  refine status_eq_zero (check1_getLsbD p hsize) fun i => ?_
  unfold Defect1
  split
  next => exact fun h => h.elim (· rfl) (· rfl)
  next =>
    have hfooter := check1_frame1_getLsbD_three p (id :: len :: rest)
    exact mt (check1_getLsbD p hsize 3).mpr (Bool.eq_false_iff.mp hfooter)
  next =>
    have hbyte : byteAt (frame1 p (id :: len :: rest)) 3 = len := rfl
    rw [frame1_length, hbyte, hlen]
    exact fun h => h rfl
  next => exact not_false

/-- A v2 status frame in its domain has no defect when its error byte has the alert bit clear (R157). -/
theorem check2_frame2_eq_zero {p : Params} (hp : p.Wf) (id : Byte) {params : List Byte}
    (hdomain : params.length + 3 ≤ 65535) (hlen : p.v2DataOffset ≤ params.length + 8)
    (halert : (byteAt (frame2 p id 0x55 params) p.v2ErrOffset).getLsbD 7 = false) :
    check2 p (frame2 p id 0x55 params) = 0 := by
  have hsize : p.v2DataOffset + 2 ≤ (frame2 p id 0x55 params).length := by
    rw [frame2_length]
    omega
  refine status_eq_zero (check2_getLsbD hp hsize) fun i => ?_
  by_cases hi : i = 1 ∨ i = 2 ∨ i = 3 ∨ i = 4
  · exact not_defect2_frame2 p id hdomain hi
  · unfold Defect2
    split
    next => simp at hi
    next => simp at hi
    next => simp at hi
    next => simp at hi
    next => exact Bool.eq_false_iff.mp halert
    next => exact not_false

/-- Settles O51: both frames pass their check with the size the read expects, and the data follow the error byte. -/
theorem statusFrameDataIsExtracted : Obligations.StatusFrameDataIsExtracted := by
  intro s d id err data hp hd hdata
  have htake : ∀ footer : List Byte, (data ++ footer).take d.length.toNat = data := fun footer => by
    rw [← hdata, List.take_left]
  refine ⟨fun hv herr hoff halert => ?v2, fun hv haddr hmax => ?v1⟩
  case v2 =>
    have hcheck : check2 s.params (frame2 s.params id 0x55 (err :: data)) = 0 :=
      check2_frame2_eq_zero hp id (by rw [List.length_cons]; omega) (by rw [hoff, List.length_cons]; omega)
        (by rw [herr]; exact halert)
    have hst : xtrStatus s.params s.pver d (frame2 s.params id 0x55 (err :: data)) = 0 := by
      rw [hv, xtrStatus_eq_zero, respSize_v2, frame2_length, List.length_cons, hoff]
      exact ⟨hcheck, by omega⟩
    rw [exec_regXtr_data _ (not_unreadable hd (.inl hv)) hst, hv, dataOffset, hoff]
    exact congrArg (fun payload => Host.Outcome.next (replied s (0x00 :: payload))) (htake _)
  case v1 =>
    have hcheck : check1 s.params (frame1 s.params (id :: BitVec.ofNat 8 (data.length + 2) :: err :: data)) = 0 :=
      check1_frame1_eq_zero _ _ _ (by simp) (by rw [BitVec.toNat_ofNat, List.length_cons]; omega)
    have hst : xtrStatus s.params s.pver d
        (frame1 s.params ([id, BitVec.ofNat 8 (data.length + 2), err] ++ data)) = 0 := by
      rw [hv, xtrStatus_eq_zero, respSize_v1, frame1_length, List.length_append, hdata]
      exact ⟨hdata ▸ hcheck, by simp; omega⟩
    rw [exec_regXtr_data _ (not_unreadable hd (.inr haddr)) hst, hv, dataOffset]
    exact congrArg (fun payload => Host.Outcome.next (replied s (0x00 :: payload))) (htake _)

end Sys2Proof.Machine
end

section
/-! The whole block on its inputs (60_exceptions.md R190, R202, R203): no run stops, whoever sends the commands. -/
namespace Sys2Proof.Machine

/-! ### The sender of a command -/

/-- A step with an input waiting takes it. -/
theorem step_setInbox_cons (s : State) (x : Input) (rest : List Input) :
    step (s.setInbox (x :: rest)) = takeInput x (s.setInbox rest) := rfl

/-- The block reads a command's message and never its sender (R203). -/
theorem takeInput_sender (p q : Party) (m : List Byte) (s : State) :
    takeInput (.command p m) s = takeInput (.command q m) s := rfl

/-- Settles O9: the head of the inbox is all in which the two states differ, and either step takes it, leaving the
same state for the answer. -/
theorem senderMakesNoDifference : Obligations.SenderMakesNoDifference := by
  intro s p q m rest
  calc step (s.setInbox (.command p m :: rest))
    _ = takeInput (.command p m) (s.setInbox rest) := step_setInbox_cons s _ rest
    _ = takeInput (.command q m) (s.setInbox rest) := takeInput_sender p q m _
    _ = step (s.setInbox (.command q m :: rest)) := (step_setInbox_cons s _ rest).symm

/-! ### Runs -/

/-- Progress and preservation in one: the step is answered, and from where it leads the next one will be. -/
theorem BlockInv.step_goes_on {s : State} (h : BlockInv s) (hd : InboxDeliverable s) :
    ∃ t, step s = .next t ∧ BlockInv t ∧ InboxDeliverable t := by
  obtain ⟨t, ht⟩ := h.step_answers hd
  obtain ⟨hinv, hparams⟩ := h.after_step ht
  exact ⟨t, ht, hinv, hd.after_step ht hparams⟩

/-- Settles O59, by induction on the number of steps: the invariant and the deliverability of the waiting inputs are
handed on together. -/
theorem noRunEverStops : Obligations.NoRunEverStops := by
  intro n
  induction n with
  | zero => exact fun s h _ => ⟨s, run_zero s, h⟩
  | succ n ih =>
    intro s h hd
    obtain ⟨u, hstep, hinv, hdeliverable⟩ := h.step_goes_on hd
    obtain ⟨t, hrun, htinv⟩ := ih u hinv hdeliverable
    exact ⟨t, (run_succ n s u hstep).trans hrun, htinv⟩

end Sys2Proof.Machine
end

section
/-! `Reset` as an input (70_reset_and_hazards.md R215 to R218). -/
namespace Sys2Proof.Machine

/-- No byte of `BUF` has a value after `Reset` (log 7). -/
theorem memGet_resetEvent_buf (s : State) (a : Nat) : memGet s.resetEvent.buf a = none := by
  rw [State.resetEvent_buf, memGet_nil]

/-- Settles O10: the step takes `Reset` off the inbox and answers the reset of what is left; taking it changes
neither the parameters nor the results sent, which are all that the clauses read of the old state. -/
theorem resetDiscardsTheEnvelope : Obligations.ResetDiscardsTheEnvelope := by
  intro s rest hreset
  refine ⟨(s.setInbox rest).resetEvent, step_reset hreset, ?slot, ?pktSize, ?respSize, memGet_resetEvent_buf _,
    ?motorId, ?pver, ?params, ?inbox, ?outbox⟩
  case slot => exact State.resetEvent_envState _
  case pktSize => exact State.resetEvent_pktSize _
  case respSize => exact State.resetEvent_respSize _
  case motorId => rw [State.resetEvent_motorId, State.setInbox_params]
  case pver => rw [State.resetEvent_pver, State.setInbox_params]
  case params => rw [State.resetEvent_params, State.setInbox_params]
  case inbox => rw [State.resetEvent_inbox, State.setInbox_inbox]
  case outbox => rw [State.resetEvent_outbox, State.setInbox_outbox]

end Sys2Proof.Machine
end
